-- ==== Sys2Proof/Word.lean ====
section
/-! DEFINITION. The plain types of the 7E20 model: bytes, the index ranges of the spec, and tables of fixed length. -/

namespace Sys2Proof

/-- One byte of a frame (section 10.10). -/
abbrev Byte := BitVec 8

/-- The 32-bit identity of a seat unit (R109). -/
abbrev Serial := BitVec 32

/-- A seating position, 0..15 (R1). -/
abbrev Pos := Fin 16

/-- A floor slot, 0..15 (R112). -/
abbrev Slot := Fin 16

/-- A seat index within a seat unit, 0..2 (R17). -/
abbrev SeatIx := Fin 3

/-- A RULE index, 0..23 (R45). -/
abbrev RuleIx := Fin 24

/-- A ring entry index, 0..11 (R86). -/
abbrev RingIx := Fin 12

/-- The 10-bit result of one conversion or one cell, 0..1023 (R25, R70). -/
abbrev Count := Fin 1024

/-- A tone number, 0..3 (R158). -/
abbrev Tone := Fin 4

/-- The two seat segments and their controllers SGA and SGB (R81). -/
inductive Seg where
  | a
  | b
deriving DecidableEq, Repr

/-- The segment that is not the given one. -/
def Seg.other : Seg → Seg
  | .a => .b
  | .b => .a

/-- Entry `i` of a table replaced by `x`. -/
def put {α : Type} {n : Nat} (v : Vector α n) (i : Fin n) (x : α) : Vector α n :=
  v.set i.val x i.isLt

end Sys2Proof
end

