-- ==== Sys2Proof/Config.lean ====
section
/-! DEFINITION. The constants the spec fixes for the part, and the free values it leaves open. -/

namespace Sys2Proof.Config

/-- Vendor code of the IDENTQ reply (R197). -/
def vendorCode : Nat := 0x5A3D

/-- Part code of the IDENTQ reply (R197). -/
def partCode : Nat := 0x7E20

/-- Revision of the IDENTQ reply (R197). -/
def revision : Nat := 1

/-- The sync byte that opens every trunk frame (R188). -/
def syncByte : Byte := 0xA5

/-- The greatest payload length of a trunk frame (R188, R189). -/
def maxPayload : Nat := 48

/-- Places of the reply FIFO (R191). -/
def replyPlaces : Nat := 8

/-- Copies the mirror FIFO holds (R203). -/
def mirrorPlaces : Nat := 8

/-- Pass-through records a segment holds at most (R99). -/
def recordPlaces : Nat := 3

/-- Duration of the chime test in seconds, the bound of its time remaining (R159). -/
def chimeTestSeconds : Nat := 1

/-- Duration of the panel test in seconds, the bound of its time remaining (R165). -/
def panelTestSeconds : Nat := 2

/-- FREE VALUE. The time a running timer has left when a status is read, before its bound is applied
(R167, R187; assumption log entry 3). Its argument is the free counter of the state. -/
opaque timeLeft : Nat → Nat

/-- FREE VALUE. Which waiting request or withdrawal reaches CHD next, among those of several positions
(R156, R157; assumption log entry 4). Its arguments are the free counter and the number still waiting. -/
opaque chimeArrival : Nat → Nat → Nat

end Sys2Proof.Config
end

