-- ==== Sys2Proof/Syntax.lean ====
section
/-! DEFINITION. The commands of the 7E20: one constructor per row of spec/opcode_table.json. -/

namespace Sys2Proof

/-- The commands. A frame command is the arrival of the second check byte of a frame whose check holds (R190),
with its tag and its payload bytes. A level that an event samples from a pin comes as an operand
(assumption log entry 8). -/
inductive Instr where
  /-- HARD_RESET: assertion of RESET_N or application of power (R171). -/
  | hardReset
  /-- LOAD_COMPLETE: the load ends (R171). `ign` and `door` are the levels of IGN (on) and DOOR (open). -/
  | loadComplete (ign door : Bool)
  /-- IGNITION_CHANGE: IGN has stood at `on` for 20 ms (R169). -/
  | ignitionChange (on : Bool)
  /-- DOOR_CHANGE: DOOR has stood at `ajar` for 20 ms (R169). -/
  | doorChange (ajar : Bool)
  /-- BUCKLE_WAKE: the buckle input of front position 0 or 1 crossed for 20 ms (R184). -/
  | buckleWake (front : Fin 2)
  /-- TRUNK_WAKE: activity on TRK_RX (R184). -/
  | trunkWake
  /-- RX_HUNT_RESUME: TRK_RX idle for more than two byte times after wake (R204). -/
  | rxHuntResume
  /-- FRAME_GAP_ABANDON: an idle gap above 80 us inside a frame (R189). -/
  | frameGapAbandon
  /-- LENGTH_ABANDON: a length byte arrives inside a frame (R189). -/
  | lengthAbandon (length : Byte)
  /-- TRUNK_CHECK_FAIL: a complete frame whose check fails (R190). -/
  | trunkCheckFail
  /-- UNKNOWN_KIND: a complete frame of a kind that names no inbound kind (R190). -/
  | unknownKind (kind tag : Byte)
  /-- VEHSTAT (R170). -/
  | vehstat (payload : List Byte)
  /-- TBLWR of table 1, and every TBLWR whose payload names no table (R110, R190, R193; log entry 10).
  The payload is the whole payload: table id, index, entry. -/
  | tblwrNode (tag : Byte) (payload : List Byte)
  /-- TBLWR of table 2 (R18). -/
  | tblwrSeatmap (tag index : Byte) (entry : List Byte)
  /-- TBLWR of table 3 (R20). -/
  | tblwrPoscfg (tag index : Byte) (entry : List Byte)
  /-- TBLWR of table 4 (R48). -/
  | tblwrRule (tag index : Byte) (entry : List Byte)
  /-- TBLWR of table 5 (R133). -/
  | tblwrProfile (tag index : Byte) (entry : List Byte)
  /-- TBLWR of table 6 (R86). -/
  | tblwrRingA (tag index : Byte) (entry : List Byte)
  /-- TBLWR of table 7 (R86). -/
  | tblwrRingB (tag index : Byte) (entry : List Byte)
  /-- TBLWR of table 8 (R84). -/
  | tblwrSegcfg (tag index : Byte) (entry : List Byte)
  /-- TBLWR of table 9 (R76). -/
  | tblwrLocalcfg (tag index : Byte) (entry : List Byte)
  /-- TBLWR of table 10 (R186). -/
  | tblwrTiming (tag index : Byte) (entry : List Byte)
  /-- TBLWR of table 11 (R162). -/
  | tblwrPanelcfg (tag index : Byte) (entry : List Byte)
  /-- TBLWR of table 12 (R205). -/
  | tblwrProtect (tag index : Byte) (entry : List Byte)
  /-- TBLRD (R194). -/
  | tblrd (tag : Byte) (payload : List Byte)
  /-- POSQRY (R16). -/
  | posqry (tag : Byte) (payload : List Byte)
  /-- NODEREQ (R195). -/
  | nodereq (tag : Byte) (payload : List Byte)
  /-- STAGE (R207). -/
  | stage (tag : Byte) (payload : List Byte)
  /-- COMMIT (R208). -/
  | commit (tag : Byte) (payload : List Byte)
  /-- NVCANCEL (R209). -/
  | nvcancel (tag : Byte) (payload : List Byte)
  /-- NVERASE (R210). -/
  | nverase (tag : Byte) (payload : List Byte)
  /-- PROTLOAD (R211). -/
  | protload (tag : Byte) (payload : List Byte)
  /-- CALLOCK (R211). -/
  | callock (tag : Byte) (payload : List Byte)
  /-- SLEEPREQ (R173). -/
  | sleepreq (tag : Byte) (payload : List Byte)
  /-- ALERTACK (R180). -/
  | alertack (tag : Byte) (payload : List Byte)
  /-- CHIMETST (R159). -/
  | chimetst (tag : Byte) (payload : List Byte)
  /-- PANELTST (R165). -/
  | paneltst (tag : Byte) (payload : List Byte)
  /-- CLRFLAG (R198). -/
  | clrflag (tag : Byte) (payload : List Byte)
  /-- IDENTQ (R197). -/
  | identq (tag : Byte) (payload : List Byte)
  /-- SOFTRST (R199). -/
  | softrst (tag : Byte) (payload : List Byte)
  /-- SEND_REPLY (R191, R201). -/
  | sendReply
  /-- SEND_ALERT (R179, R201). -/
  | sendAlert
  /-- SEND_NODEANS (R103, R201). -/
  | sendNodeans
  /-- SEND_WAKENOTE (R185, R201). -/
  | sendWakenote
  /-- SEND_POSNOTE (R15, R201). -/
  | sendPosnote
  /-- SEND_SEATNOTE (R129, R201). -/
  | sendSeatnote
  /-- SEND_MIRROR (R203, R201). -/
  | sendMirror
  /-- SEND_COMPLETE (R200). `ign` and `door` are the levels of IGN and DOOR, which a soft reset reads (R168). -/
  | sendComplete (ign door : Bool)
  /-- SPACING_EXPIRY (R88). -/
  | spacingExpiry (g : Seg)
  /-- POLL_START (R89). -/
  | pollStart (g : Seg)
  /-- POLL_SENT (R91). -/
  | pollSent (g : Seg)
  /-- SEGMENT_FRAME: a frame completes, `bytes` from its first to its last (R92). -/
  | segmentFrame (g : Seg) (bytes : List Byte)
  /-- SEGMENT_FRAME_CUT (R83). -/
  | segmentFrameCut (g : Seg)
  /-- REPLY_WINDOW_EXPIRY (R93). -/
  | replyWindowExpiry (g : Seg)
  /-- LINE_STUCK_DETECT (R96). -/
  | lineStuckDetect (g : Seg)
  /-- PROBE_EXPIRY (R97). `active` says that the line is sampled at its active level. -/
  | probeExpiry (g : Seg) (active : Bool)
  /-- SCAN_INTERVAL_EXPIRY (R69). -/
  | scanIntervalExpiry
  /-- CONVERSION_COMPLETE (R70). `ancA` and `ancB` are the levels of ANC1A and ANC1B, asserted for true (R73). -/
  | conversionComplete (result : Count) (ancA ancB : Bool)
  /-- REMINDER_TICK (R141). -/
  | reminderTick
  /-- ALERT_PATTERN_TIMER (R158). -/
  | alertPatternTimer
  /-- CHIME_TEST_QUARTER (R159). -/
  | chimeTestQuarter
  /-- CHIME_TEST_END (R159). -/
  | chimeTestEnd
  /-- SCAN_FRAME_START (R163). -/
  | scanFrameStart
  /-- COMMON_SLOT (R163). -/
  | commonSlot
  /-- DUTY_END (R163). -/
  | dutyEnd
  /-- FLASH_PHASE (R161). -/
  | flashPhase
  /-- PANEL_TEST_EXPIRY (R165). -/
  | panelTestExpiry
  /-- RUNDOWN_EXPIRY (R172). -/
  | rundownExpiry
  /-- WATCH_INTERVAL_EXPIRY (R175). -/
  | watchIntervalExpiry
  /-- DWELL_TICK (R177). -/
  | dwellTick
  /-- ALERT_REPEAT_EXPIRY (R178). -/
  | alertRepeatExpiry
  /-- WATCH_ELAPSED_TICK (R181). -/
  | watchElapsedTick
  /-- COMMIT_COMPLETE (R208). `same` says that the read-back equals the staged entry. -/
  | commitComplete (same : Bool)
  /-- ERASE_COMPLETE (R210). -/
  | eraseComplete
  /-- LOCK_COMPLETE (R211). -/
  | lockComplete
  /-- FRAME_SYNC: a byte arrives while the receiver hunts (R189). -/
  | frameSync (byte : Byte)
  /-- SEGMENT_FRAME_BEGIN (R83). -/
  | segmentFrameBegin (g : Seg)
  /-- SEGMENT_LINE_IDLE (R93). -/
  | segmentLineIdle (g : Seg)
deriving DecidableEq, Repr

end Sys2Proof
end

