-- ==== Sys2Proof/WellFormed.lean ====
section
/-! DEFINITION. Which commands are commands of their row: a payload fits the envelope, an unknown kind is unknown,
a TBLWR row's table is its own. The machine gives every command a meaning, well-formed or not (log entry 11). -/

namespace Sys2Proof

/-- A kind code that names one of the inbound kinds of section 10.10. -/
def inboundKind (k : Byte) : Bool := 1 ≤ k.toNat && k.toNat ≤ 0x12

/-- A payload fits the envelope of R188. -/
def payloadFits (p : List Byte) : Bool := p.length ≤ Config.maxPayload

/-- An entry fits the envelope together with its table id and index (R188). -/
def entryFits (e : List Byte) : Bool := e.length + 2 ≤ Config.maxPayload

/-- A TBLWR payload that belongs to the row TBLWR_NODE: it names table 1, or none of the tables 1..12
(log entry 10). -/
def nodeRowPayload : List Byte → Bool
  | t :: _ :: _ => t.toNat ≤ 1 || 12 < t.toNat
  | _ => true

/-- The command is one its row stands for. -/
def Instr.wellFormed : Instr → Bool
  | .lengthAbandon l => Config.maxPayload < l.toNat
  | .unknownKind k _ => !inboundKind k
  | .frameSync b => b == Config.syncByte
  | .tblwrNode _ p => payloadFits p && nodeRowPayload p
  | .tblwrSeatmap _ _ e => entryFits e
  | .tblwrPoscfg _ _ e => entryFits e
  | .tblwrRule _ _ e => entryFits e
  | .tblwrProfile _ _ e => entryFits e
  | .tblwrRingA _ _ e => entryFits e
  | .tblwrRingB _ _ e => entryFits e
  | .tblwrSegcfg _ _ e => entryFits e
  | .tblwrLocalcfg _ _ e => entryFits e
  | .tblwrTiming _ _ e => entryFits e
  | .tblwrPanelcfg _ _ e => entryFits e
  | .tblwrProtect _ _ e => entryFits e
  | .vehstat p => payloadFits p
  | .tblrd _ p => payloadFits p
  | .posqry _ p => payloadFits p
  | .nodereq _ p => payloadFits p
  | .stage _ p => payloadFits p
  | .commit _ p => payloadFits p
  | .nvcancel _ p => payloadFits p
  | .nverase _ p => payloadFits p
  | .protload _ p => payloadFits p
  | .callock _ p => payloadFits p
  | .sleepreq _ p => payloadFits p
  | .alertack _ p => payloadFits p
  | .chimetst _ p => payloadFits p
  | .paneltst _ p => payloadFits p
  | .clrflag _ p => payloadFits p
  | .identq _ p => payloadFits p
  | .softrst _ p => payloadFits p
  | .hardReset => true
  | .loadComplete _ _ => true
  | .ignitionChange _ => true
  | .doorChange _ => true
  | .buckleWake _ => true
  | .trunkWake => true
  | .rxHuntResume => true
  | .frameGapAbandon => true
  | .trunkCheckFail => true
  | .sendReply => true
  | .sendAlert => true
  | .sendNodeans => true
  | .sendWakenote => true
  | .sendPosnote => true
  | .sendSeatnote => true
  | .sendMirror => true
  | .sendComplete _ _ => true
  | .spacingExpiry _ => true
  | .pollStart _ => true
  | .pollSent _ => true
  | .segmentFrame _ _ => true
  | .segmentFrameCut _ => true
  | .replyWindowExpiry _ => true
  | .lineStuckDetect _ => true
  | .probeExpiry _ _ => true
  | .scanIntervalExpiry => true
  | .conversionComplete _ _ _ => true
  | .reminderTick => true
  | .alertPatternTimer => true
  | .chimeTestQuarter => true
  | .chimeTestEnd => true
  | .scanFrameStart => true
  | .commonSlot => true
  | .dutyEnd => true
  | .flashPhase => true
  | .panelTestExpiry => true
  | .rundownExpiry => true
  | .watchIntervalExpiry => true
  | .dwellTick => true
  | .alertRepeatExpiry => true
  | .watchElapsedTick => true
  | .commitComplete _ => true
  | .eraseComplete => true
  | .lockComplete => true
  | .segmentFrameBegin _ => true
  | .segmentLineIdle _ => true

end Sys2Proof
end

