-- ==== Sys2Proof/Decode.lean ====
section
/-! DEFINITION. The command a table word spells (none: the table gives no bits, log entry 27), and the command a
complete trunk frame brings by the wire layout of section 10.10, with the frame a command comes in. -/

namespace Sys2Proof

/-- No row of spec/opcode_table.json gives bits. -/
def decodeTableWord (_nbits _w : Nat) : Option Instr := none

/-- The sum of a list of bytes modulo 65536 (R188, segment check of section 10.10). -/
def byteSum (bs : List Byte) : Nat := (bs.map (·.toNat)).sum % 65536

/-- The two check bytes of a sum, high byte first (R188). -/
def checkBytes (n : Nat) : List Byte := [BitVec.ofNat 8 (n / 256), BitVec.ofNat 8 n]

/-- A trunk frame's bytes: sync, kind, tag, length, payload, check over all but the sync (R188). -/
def frameBytes (kind tag : Byte) (payload : List Byte) : List Byte :=
  let body := kind :: tag :: BitVec.ofNat 8 payload.length :: payload
  Config.syncByte :: body ++ checkBytes (byteSum body)

/-- The row of a TBLWR by the table id of its payload (R193). -/
def tblwrCommand (tag : Byte) (payload : List Byte) : Instr :=
  match payload with
  | t :: i :: e =>
    match t.toNat with
    | 2 => .tblwrSeatmap tag i e
    | 3 => .tblwrPoscfg tag i e
    | 4 => .tblwrRule tag i e
    | 5 => .tblwrProfile tag i e
    | 6 => .tblwrRingA tag i e
    | 7 => .tblwrRingB tag i e
    | 8 => .tblwrSegcfg tag i e
    | 9 => .tblwrLocalcfg tag i e
    | 10 => .tblwrTiming tag i e
    | 11 => .tblwrPanelcfg tag i e
    | 12 => .tblwrProtect tag i e
    | _ => .tblwrNode tag payload
  | _ => .tblwrNode tag payload

/-- The command that a complete frame of a kind is (the kind codes of section 10.10, R190 test 3). -/
def kindCommand (kind tag : Byte) (payload : List Byte) : Instr :=
  match kind.toNat with
  | 0x01 => .vehstat payload
  | 0x02 => tblwrCommand tag payload
  | 0x03 => .tblrd tag payload
  | 0x04 => .posqry tag payload
  | 0x05 => .nodereq tag payload
  | 0x06 => .stage tag payload
  | 0x07 => .commit tag payload
  | 0x08 => .nvcancel tag payload
  | 0x09 => .nverase tag payload
  | 0x0A => .protload tag payload
  | 0x0B => .callock tag payload
  | 0x0C => .sleepreq tag payload
  | 0x0D => .alertack tag payload
  | 0x0E => .chimetst tag payload
  | 0x0F => .paneltst tag payload
  | 0x10 => .clrflag tag payload
  | 0x11 => .identq tag payload
  | 0x12 => .softrst tag payload
  | _ => .unknownKind kind tag

/-- The command that the bytes of one frame bring, from the sync byte on (R188 to R190): a length byte above 48
abandons the frame, a complete frame fails its check or is taken by its kind. None where the bytes are not one
complete frame. -/
def trunkCommand : List Byte → Option Instr
  | sync :: kind :: tag :: len :: rest =>
    if sync ≠ Config.syncByte then none
    else if Config.maxPayload < len.toNat then some (.lengthAbandon len)
    else if rest.length ≠ len.toNat + 2 then none
    else
      let payload := rest.take len.toNat
      if rest.drop len.toNat = checkBytes (byteSum (kind :: tag :: len :: payload)) then
        some (kindCommand kind tag payload)
      else some .trunkCheckFail
  | _ => none

/-- The frame in which the body controller sends a command (section 10.10); none for a row that is no frame. -/
def commandFrame : Instr → Option (List Byte)
  | .unknownKind k tag => some (frameBytes k tag [])
  | .vehstat p => some (frameBytes 0x01 0 p)
  | .tblwrNode tag p => some (frameBytes 0x02 tag p)
  | .tblwrSeatmap tag i e => some (frameBytes 0x02 tag (2 :: i :: e))
  | .tblwrPoscfg tag i e => some (frameBytes 0x02 tag (3 :: i :: e))
  | .tblwrRule tag i e => some (frameBytes 0x02 tag (4 :: i :: e))
  | .tblwrProfile tag i e => some (frameBytes 0x02 tag (5 :: i :: e))
  | .tblwrRingA tag i e => some (frameBytes 0x02 tag (6 :: i :: e))
  | .tblwrRingB tag i e => some (frameBytes 0x02 tag (7 :: i :: e))
  | .tblwrSegcfg tag i e => some (frameBytes 0x02 tag (8 :: i :: e))
  | .tblwrLocalcfg tag i e => some (frameBytes 0x02 tag (9 :: i :: e))
  | .tblwrTiming tag i e => some (frameBytes 0x02 tag (10 :: i :: e))
  | .tblwrPanelcfg tag i e => some (frameBytes 0x02 tag (11 :: i :: e))
  | .tblwrProtect tag i e => some (frameBytes 0x02 tag (12 :: i :: e))
  | .tblrd tag p => some (frameBytes 0x03 tag p)
  | .posqry tag p => some (frameBytes 0x04 tag p)
  | .nodereq tag p => some (frameBytes 0x05 tag p)
  | .stage tag p => some (frameBytes 0x06 tag p)
  | .commit tag p => some (frameBytes 0x07 tag p)
  | .nvcancel tag p => some (frameBytes 0x08 tag p)
  | .nverase tag p => some (frameBytes 0x09 tag p)
  | .protload tag p => some (frameBytes 0x0A tag p)
  | .callock tag p => some (frameBytes 0x0B tag p)
  | .sleepreq tag p => some (frameBytes 0x0C tag p)
  | .alertack tag p => some (frameBytes 0x0D tag p)
  | .chimetst tag p => some (frameBytes 0x0E tag p)
  | .paneltst tag p => some (frameBytes 0x0F tag p)
  | .clrflag tag p => some (frameBytes 0x10 tag p)
  | .identq tag p => some (frameBytes 0x11 tag p)
  | .softrst tag p => some (frameBytes 0x12 tag p)
  | _ => none

end Sys2Proof
end

