-- ==== Sys2Proof/Machine/Tables.lean ====
section
/-! DEFINITION. The table entries and the records of the part, as plain data. Their updates and their wire forms stand
in the files of the blocks that own them. -/

namespace Sys2Proof.Machine

/-! ### Values of the position record (R2) -/

inductive Presence where
  | noSeat
  | live
  | held
  | sourceLost
deriving DecidableEq, Repr

/-- What feeds a position (R1). -/
inductive Source where
  | loc
  | seat (slot : Slot) (ix : SeatIx)
deriving DecidableEq, Repr

/-- The coarse load class (section 2.4). -/
inductive Band where
  | empty
  | light
  | small
  | large
deriving DecidableEq, Repr

/-- LATCHED, OPEN, FAULT (R36). -/
inductive Buckle where
  | latched
  | opened
  | fault
deriving DecidableEq, Repr

/-- NONE, INFANT_REAR, CHILD_FWD, BOOSTER (R42). -/
inductive RestraintTag where
  | none
  | infantRear
  | childFwd
  | booster
deriving DecidableEq, Repr

/-- The seven classes, in the order of R2. -/
inductive Cls where
  | vacant
  | object
  | smallOccupant
  | adult
  | childSeatEmpty
  | childSeatOccupied
  | undetermined
deriving DecidableEq, Repr

/-- The reminder states (R132). -/
inductive RemState where
  | off
  | belted
  | grace
  | visual
  | audible
  | quiet
  | suspended
deriving DecidableEq, Repr

/-- The part of a burst cycle (R132). -/
inductive Phase where
  | on
  | gap
deriving DecidableEq, Repr

/-- The reminder fields of a position (R132). -/
structure Reminder where
  state : RemState
  phase : Option Phase
  ticks : Nat
  bursts : Nat
deriving DecidableEq, Repr

/-- A pending candidate with its count, 1..14 (R61, R64). Absent is `none`. -/
structure Pending where
  cls : Cls
  count : Nat
deriving DecidableEq, Repr

/-- A position record (R2). `anchorA` and `anchorB` are true for ENGAGED. `armed` gives the remaining window of each
rule, 0 for a rule not armed. A buckle candidate, when present, has count 1. -/
structure Position where
  presence : Presence
  source : Option Source
  load : Nat
  band : Band
  footprint : Nat
  buckle : Buckle
  candidate : Option Buckle
  anchorA : Bool
  anchorB : Bool
  tag : RestraintTag
  armed : Vector Nat 24
  cls : Cls
  pending : Option Pending
  seedDue : Bool
  owed : Bool
  rem : Reminder
deriving DecidableEq, Repr

/-- One block: a seat block or a local report (section 1.2). -/
structure Block where
  cells : Vector Count 8
  buckle : Buckle
  anchorA : Bool
  anchorB : Bool
  tag : RestraintTag
  supplyLow : Bool
deriving DecidableEq, Repr

/-! ### Table entries -/

/-- NODE entry (R109). -/
structure NodeEntry where
  valid : Bool
  serial : Serial
  seatCount : Nat
  mirror : Bool
deriving DecidableEq, Repr

/-- SEATMAP entry (R17). -/
structure SeatMapEntry where
  valid : Bool
  slot : Slot
  seat : SeatIx
  pos : Pos
deriving DecidableEq, Repr

/-- POSCFG entry (R20). `gain` is in 1/64 units. -/
structure PosCfg where
  offsets : Vector (Fin 256) 8
  gain : Nat
  tCell : Nat
  tObj : Nat
  tSmall : Nat
  tAdult : Nat
  hyst : Nat
  shift : Fin 4
  upConfirm : Nat
  downConfirm : Nat
  profile : Fin 4
  watchEligible : Bool
deriving DecidableEq, Repr

/-- The anchor condition of a rule (R45). -/
inductive AnchorCond where
  | any
  | engaged
  | free
deriving DecidableEq, Repr

/-- RULE entry (R45). A set has bit n set when it holds the nth listed value. `outcome` none is ARM. -/
structure RuleEntry where
  valid : Bool
  positions : BitVec 16
  bands : BitVec 4
  fpMin : Nat
  fpMax : Nat
  buckles : BitVec 3
  condA : AnchorCond
  condB : AnchorCond
  tags : BitVec 4
  pred : Option RuleIx
  outcome : Option Cls
  window : Nat
deriving DecidableEq, Repr

/-- PROFILE entry (R133). Bit n of `required` stands for the nth class. -/
structure ProfileEntry where
  required : BitVec 7
  grace : Nat
  visual : Nat
  burstOn : Nat
  burstGap : Nat
  bursts : Nat
  tone : Tone
  speedGated : Bool
deriving DecidableEq, Repr

/-- RING_A or RING_B entry (R86). `next` none is END. -/
structure RingEntry where
  valid : Bool
  enabled : Bool
  slot : Slot
  next : Option RingIx
deriving DecidableEq, Repr

/-- SEGCFG entry (R84). -/
structure SegCfg where
  enable : Bool
  head : RingIx
  pollInterval : Nat
  replyWindow : Nat
  missLimit : Nat
  detachCount : Nat
deriving DecidableEq, Repr

/-- LOCALCFG entry (R76). -/
structure LocalCfg where
  fitted0 : Bool
  fitted1 : Bool
  threshold : Nat
  hyst : Nat
  interval : Nat
deriving DecidableEq, Repr

/-- TIMING entry (R186). `tick` is the reminder tick code. -/
structure Timing where
  tick : Fin 4
  runDown : Nat
  dwell : Nat
  alertRepeat : Nat
  watchInterval : Nat
  watchMax : Nat
  wakeTrunk : Bool
  wakeDoor : Bool
  wakeBuckle : Bool
deriving DecidableEq, Repr

/-- The two panel layouts (R162). -/
inductive Layout where
  | fourByEight
  | eightByFour
deriving DecidableEq, Repr

/-- PANELCFG entry (R162). -/
structure PanelCfg where
  enable : Bool
  layout : Layout
  fitted : BitVec 16
  duty : Nat
deriving DecidableEq, Repr

/-- The twelve tables in the order of their ids (R193). -/
inductive TableId where
  | node
  | seatmap
  | poscfg
  | rule
  | profile
  | ringA
  | ringB
  | segcfg
  | localcfg
  | timing
  | panelcfg
  | protect
deriving DecidableEq, Repr

/-- The staging record's content: a table, an index and one entry (R205, R207). -/
inductive Staged where
  | node (i : Fin 16) (e : NodeEntry)
  | seatmap (i : Fin 24) (e : SeatMapEntry)
  | poscfg (i : Fin 16) (e : PosCfg)
  | rule (i : Fin 24) (e : RuleEntry)
  | profile (i : Fin 4) (e : ProfileEntry)
  | ringA (i : Fin 12) (e : RingEntry)
  | ringB (i : Fin 12) (e : RingEntry)
  | segcfg (i : Fin 2) (e : SegCfg)
  | localcfg (e : LocalCfg)
  | timing (e : Timing)
  | panelcfg (e : PanelCfg)
  | protect (w : BitVec 4)
deriving DecidableEq, Repr

/-- The nonvolatile store: each record erased (none) or programmed, and the control record (R205). -/
structure Store where
  node : Vector (Option NodeEntry) 16
  seatmap : Vector (Option SeatMapEntry) 24
  poscfg : Vector (Option PosCfg) 16
  rule : Vector (Option RuleEntry) 24
  profile : Vector (Option ProfileEntry) 4
  ringA : Vector (Option RingEntry) 12
  ringB : Vector (Option RingEntry) 12
  segcfg : Vector (Option SegCfg) 2
  localcfg : Option LocalCfg
  timing : Option Timing
  panelcfg : Option PanelCfg
  protect : Option (BitVec 4)
  lock : Bool
deriving DecidableEq, Repr

/-! ### Slots and segments -/

inductive SlotState where
  | empty
  | active
  | refused
  | lost
deriving DecidableEq, Repr

/-- The event kinds of R113. -/
inductive SlotEvent where
  | attached
  | refused
  | lost
  | returned
  | detached
  | swapped
  | unmappedSeat
  | countMismatch
deriving DecidableEq, Repr

/-- A slot record (R112). Bit n of `events` stands for the nth kind of R113. -/
structure SlotRec where
  state : SlotState
  serial : Option Serial
  lastSeg : Option Seg
  lastSeq : Option (Fin 16)
  miss : Nat
  lost : Nat
  events : BitVec 8
  owed : Bool
deriving DecidableEq, Repr

/-- A good REPORT's fields (section 10.10). `raw` is the seat blocks as received, for the mirror copy. -/
structure Report where
  slot : Slot
  serial : Serial
  seq : Fin 16
  flags : Byte
  blocks : List Block
  raw : List Byte
  answer : List Byte
deriving DecidableEq, Repr

/-- Answer statuses of a pass-through record, in the order of their codes (section 10.10). -/
inductive AnswerStatus where
  | ok
  | noResponse
  | notPresent
  | segmentFault
  | segmentOff
deriving DecidableEq, Repr

/-- State of a pass-through record (R99). `rank` is its place among the segment's ANSWERED records in the order of
answering, 0 for the earliest (R103). -/
inductive RecordState where
  | queued
  | sent
  | answered (status : AnswerStatus) (body : List Byte) (rank : Nat)
deriving DecidableEq, Repr

/-- A pass-through record (R99). -/
structure PassRecord where
  tag : Byte
  slot : Slot
  body : List Byte
  state : RecordState
deriving DecidableEq, Repr

inductive SegState where
  | stopped
  | idle
  | running
  | fault
deriving DecidableEq, Repr

/-- The poll record (R81), with the reply window the poll start took (R91). -/
structure PollRec where
  slot : Slot
  entry : RingIx
  tag : Option Byte
  window : Nat
deriving DecidableEq, Repr

/-- Whether a frame is in reception, or being ignored until the line idles (R83, R93). -/
inductive Reception where
  | none
  | receiving
  | ignoring
deriving DecidableEq, Repr

/-- A watch pass in progress (R104): the entry it visits next, none when its walk has ended; the entries visited;
whether it has polled. -/
structure WatchPass where
  next : Option RingIx
  visited : List RingIx
  polled : Bool
deriving DecidableEq, Repr

/-- A segment controller with the tables it owns (R81, R84, R86). A timer that runs holds the duration it started
with, in ms. -/
structure Segment where
  ring : Vector RingEntry 12
  cfg : SegCfg
  state : SegState
  pointer : RingIx
  headMoved : Bool
  poll : Option PollRec
  sending : Option (List Byte)
  spacing : Option Nat
  window : Option Nat
  probe : Bool
  records : List PassRecord
  reception : Reception
  pass : Option WatchPass
  badCheck : Bool
  unsolicited : Bool
  lineStuck : Bool
deriving DecidableEq, Repr

/-! ### Local sense -/

/-- The 19 analog channels in the scan order of R70. -/
inductive Channel where
  | mat0 (i : Fin 8)
  | bkl0
  | mat1 (i : Fin 8)
  | bkl1
  | vhalf
deriving DecidableEq, Repr

/-- LSU (R68). `remaining` is the channels of the scan in progress still to convert, empty when IDLE.
`followUp` says that a scan start waits for the scan in progress (R79). `timer` holds the interval in ms. -/
structure Lsu where
  cfg : LocalCfg
  remaining : List Channel
  followUp : Bool
  results : Vector Count 19
  seq0 : Fin 16
  seq1 : Fin 16
  low : Bool
  lastSupply : Count
  supplyLowFlag : Bool
  copy : Option LocalCfg
  timer : Option Nat
deriving DecidableEq, Repr

/-! ### Chime and panel -/

/-- A request or a withdrawal on its way from RME to CHD (R149). -/
inductive ChimeEvent where
  | raise (p : Pos) (tone : Tone)
  | withdraw (p : Pos)
deriving DecidableEq, Repr

/-- The tone of the alert pattern (R158). -/
inductive AlertPhase where
  | tone3
  | tone1
deriving DecidableEq, Repr

inductive Grant where
  | none
  | alert
  | test
  | pos (p : Pos)
deriving DecidableEq, Repr

/-- CHD (R155). `test` is the quarter in progress (R159). -/
structure Chd where
  alert : Option AlertPhase
  test : Option (Fin 4)
  requests : Vector (Option Tone) 16
  grant : Grant
deriving DecidableEq, Repr

/-- The five glyphs (R161). -/
inductive Glyph where
  | dark
  | belted
  | unbelted
  | warn
  | fault
deriving DecidableEq, Repr

inductive FlashPhase where
  | a
  | b
deriving DecidableEq, Repr

/-- PND (R161 to R166). `common` is the common whose slot comes next in the frame. `frameTest` says that the frame
in progress shows the panel test. `pcom` is the common driven, `plin` the lines driven. -/
structure Pnd where
  cfg : PanelCfg
  image : Vector Glyph 16
  scanning : Bool
  flash : FlashPhase
  test : Bool
  copy : Option PanelCfg
  frameTest : Bool
  common : Nat
  pcom : Option (Fin 8)
  plin : BitVec 8
deriving DecidableEq, Repr

/-! ### Power manager -/

inductive Power where
  | starting
  | run
  | parkWatch
  | sleep
deriving DecidableEq, Repr

inductive WatchSub where
  | watching
  | alerting
  | silenced
deriving DecidableEq, Repr

/-- The cause set (R168, R185). -/
structure Causes where
  reset : Bool
  soft : Bool
  ign : Bool
  trunk : Bool
  door : Bool
  buckle : Bool
  watchExpired : Bool
deriving DecidableEq, Repr

/-- PMG (R168). A timer that runs holds the duration it started with, in s. The watch set is in rising order. -/
structure Pmg where
  timing : Timing
  power : Power
  sub : Option WatchSub
  ignition : Bool
  doorOpen : Bool
  moving : Bool
  locked : Bool
  seen : Bool
  runDown : Option Nat
  sleepReq : Bool
  watchSet : List Pos
  dwell : Nat
  dwellTimer : Bool
  alertRepeat : Option Nat
  alertNumber : Nat
  alertOwed : Bool
  elapsed : Nat
  elapsedTimer : Bool
  interval : Option Nat
  causes : Causes
  wakenoteOwed : Bool
deriving DecidableEq, Repr

/-! ### Configuration store -/

inductive StoreOp where
  | commit
  | erase (region : Fin 4)
  | lock
deriving DecidableEq, Repr

/-- The operation state (R205): COMMITTING, ERASING and LOCKING are `running`, SUSPENDED is `suspended`. -/
inductive OpState where
  | idle
  | running (op : StoreOp)
  | suspended (op : StoreOp)
deriving DecidableEq, Repr

/-- CFS (R205). The calibration lock is the store's. -/
structure Cfs where
  store : Store
  live : BitVec 4
  effective : BitVec 4
  staging : Option Staged
  op : OpState
  summary : BitVec 4
  programFail : Bool
deriving DecidableEq, Repr

/-! ### Trunk port -/

/-- The receiver (R189, R204): off in SLEEP, and after wake waiting for an idle line. -/
inductive Receiver where
  | hunt
  | inFrame
  | off
  | waitIdle
deriving DecidableEq, Repr

/-- REPLY status codes in their order (section 10.10). -/
inductive Status where
  | ok
  | range
  | duplicate
  | order
  | chain
  | table
  | isProtected
  | locked
  | busy
  | notStaged
  | notPresent
  | state
  | starting
  | length
  | unknown
  | failed
  | cancelled
deriving DecidableEq, Repr

/-- A filled place of the reply FIFO: the tag and kind of the frame it answers, status and body (R191, R192). -/
structure Reply where
  tag : Byte
  kind : Byte
  status : Status
  body : List Byte
deriving DecidableEq, Repr

/-- The place reserved by the store operation in flight: the tag and kind its REPLY will carry (R191). -/
structure Reserved where
  tag : Byte
  kind : Byte
deriving DecidableEq, Repr

/-- A mirror copy (R122). `raw` is the seat blocks as received. -/
structure MirrorCopy where
  slot : Slot
  seg : Seg
  serial : Serial
  seq : Fin 16
  flags : Byte
  count : Nat
  raw : List Byte
deriving DecidableEq, Repr

/-- An outbound frame (R188). -/
structure OutFrame where
  kind : Byte
  tag : Byte
  payload : List Byte
deriving DecidableEq, Repr

/-- What the completion of a send does (R200). -/
inductive SendAction where
  | notice
  | reply (kind : Byte) (status : Status)
  | record (g : Seg)
  | mirror
deriving DecidableEq, Repr

/-- The frame being sent and what its completion does. -/
structure Sending where
  frame : OutFrame
  action : SendAction
deriving DecidableEq, Repr

/-- TKP's error flags (R196). -/
structure TkpFlags where
  badFrame : Bool
  badCheck : Bool
  badKind : Bool
  replyOverrun : Bool
  mirrorDrop : Bool
  badTable : Bool
deriving DecidableEq, Repr

/-- TKP (R204). `replies` is the filled places, oldest first. -/
structure Tkp where
  rx : Receiver
  tx : Option Sending
  replies : List Reply
  reserved : Option Reserved
  mirror : List MirrorCopy
  softReset : Bool
  flags : TkpFlags
deriving DecidableEq, Repr

end Sys2Proof.Machine
end

