-- ==== Sys2Proof/Machine/Defaults.lean ====
section
/-! DEFINITION. The invalid forms and defaults that an erased record loads, and the reset values of each block. -/

namespace Sys2Proof.Machine

/-! ### Invalid forms, defaults and reset values -/

/-- The invalid form of a NODE entry (R109). -/
def NodeEntry.invalid : NodeEntry := { valid := false, serial := 0, seatCount := 1, mirror := false }

/-- The invalid form of a SEATMAP entry (R17). -/
def SeatMapEntry.invalid : SeatMapEntry := { valid := false, slot := 0, seat := 0, pos := 0 }

/-- The defaults of POSCFG (R22). -/
def PosCfg.default : PosCfg :=
  { offsets := Vector.replicate 8 0, gain := 64, tCell := 64, tObj := 300, tSmall := 1200, tAdult := 2600,
    hyst := 100, shift := 1, upConfirm := 3, downConfirm := 5, profile := 0, watchEligible := true }

/-- The invalid form of a RULE entry (R47). -/
def RuleEntry.invalid : RuleEntry :=
  { valid := false, positions := 0, bands := 0, fpMin := 0, fpMax := 0, buckles := 0, condA := .any, condB := .any,
    tags := 0, pred := none, outcome := none, window := 1 }

/-- The defaults of PROFILE (R133): the required set is SMALL_OCCUPANT and ADULT. -/
def ProfileEntry.default : ProfileEntry :=
  { required := 0b0001100, grace := 8, visual := 20, burstOn := 4, burstGap := 4, bursts := 6, tone := 1,
    speedGated := true }

/-- The invalid form of a ring entry (R86). -/
def RingEntry.invalid : RingEntry := { valid := false, enabled := false, slot := 0, next := none }

/-- The defaults of SEGCFG (R84). -/
def SegCfg.default : SegCfg :=
  { enable := true, head := 0, pollInterval := 8, replyWindow := 3, missLimit := 3, detachCount := 20 }

/-- The defaults of LOCALCFG (R76). -/
def LocalCfg.default : LocalCfg :=
  { fitted0 := true, fitted1 := true, threshold := 430, hyst := 16, interval := 20 }

/-- The defaults of TIMING (R186). -/
def Timing.default : Timing :=
  { tick := 1, runDown := 10, dwell := 60, alertRepeat := 15, watchInterval := 2, watchMax := 30,
    wakeTrunk := true, wakeDoor := true, wakeBuckle := false }

/-- The defaults of PANELCFG (R162): positions 0 to 14 fitted. -/
def PanelCfg.default : PanelCfg := { enable := true, layout := .fourByEight, fitted := 0x7FFF, duty := 8 }

/-- The reminder fields after reset (R132). -/
def Reminder.reset : Reminder := { state := .off, phase := none, ticks := 0, bursts := 0 }

/-- The reset state of a position (R3). -/
def Position.reset : Position :=
  { presence := .noSeat, source := none, load := 0, band := .empty, footprint := 0, buckle := .opened,
    candidate := none, anchorA := false, anchorB := false, tag := .none, armed := Vector.replicate 24 0,
    cls := .undetermined, pending := none, seedDue := false, owed := true, rem := Reminder.reset }

/-- A slot record after reset (R112). -/
def SlotRec.reset : SlotRec :=
  { state := .empty, serial := none, lastSeg := none, lastSeq := none, miss := 0, lost := 0, events := 0,
    owed := false }

/-- A segment controller after hard reset, with an erased ring and SEGCFG defaults (R81, R84, R86). -/
def Segment.reset : Segment :=
  { ring := Vector.replicate 12 RingEntry.invalid, cfg := SegCfg.default, state := .stopped, pointer := 0,
    headMoved := false, poll := none, sending := none, spacing := none, window := none, probe := false,
    records := [], reception := .none, pass := none, badCheck := false, unsolicited := false, lineStuck := false }

/-- LSU after hard reset (R68). -/
def Lsu.reset : Lsu :=
  { cfg := LocalCfg.default, remaining := [], followUp := false, results := Vector.replicate 19 0, seq0 := 0,
    seq1 := 0, low := false, lastSupply := 0, supplyLowFlag := false, copy := none, timer := none }

/-- CHD after hard reset and soft reset (R155). -/
def Chd.reset : Chd := { alert := none, test := none, requests := Vector.replicate 16 none, grant := .none }

/-- PND after hard reset (R166). DESIGN CHOICE for the flash phase and the slot while stopped: log entry 6. -/
def Pnd.reset : Pnd :=
  { cfg := PanelCfg.default, image := Vector.replicate 16 .dark, scanning := false, flash := .a, test := false,
    copy := none, frameTest := false, common := 8, pcom := none, plin := 0 }

/-- The empty cause set. -/
def Causes.empty : Causes :=
  { reset := false, soft := false, ign := false, trunk := false, door := false, buckle := false,
    watchExpired := false }

/-- PMG after hard reset (R168). DESIGN CHOICE for ignition and door while STARTING: log entry 6. -/
def Pmg.reset : Pmg :=
  { timing := Timing.default, power := .starting, sub := none, ignition := false, doorOpen := false,
    moving := false, locked := false, seen := false, runDown := none, sleepReq := false, watchSet := [],
    dwell := 0, dwellTimer := false, alertRepeat := none, alertNumber := 0, alertOwed := false, elapsed := 0,
    elapsedTimer := false, interval := none, causes := { Causes.empty with reset := true }, wakenoteOwed := false }

/-- A store that has never been programmed. DESIGN CHOICE as the store of `State.reset`: log entry 5. -/
def Store.erased : Store :=
  { node := Vector.replicate 16 none, seatmap := Vector.replicate 24 none, poscfg := Vector.replicate 16 none,
    rule := Vector.replicate 24 none, profile := Vector.replicate 4 none, ringA := Vector.replicate 12 none,
    ringB := Vector.replicate 12 none, segcfg := Vector.replicate 2 none, localcfg := none, timing := none,
    panelcfg := none, protect := none, lock := false }

/-- CFS after hard reset over an erased store (R205, R206): every region's summary flag set. -/
def Cfs.reset : Cfs :=
  { store := Store.erased, live := 0, effective := 0, staging := none, op := .idle, summary := 0b1111,
    programFail := false }

/-- No error flag set. -/
def TkpFlags.clear : TkpFlags :=
  { badFrame := false, badCheck := false, badKind := false, replyOverrun := false, mirrorDrop := false,
    badTable := false }

/-- TKP after hard reset (R204). -/
def Tkp.reset : Tkp :=
  { rx := .hunt, tx := none, replies := [], reserved := none, mirror := [], softReset := false,
    flags := TkpFlags.clear }

end Sys2Proof.Machine
end

