-- ==== Sys2Proof/Machine/State.lean ====
section
/-! DEFINITION. The state of the part, its value after reset, and the reasons a step could stop. -/

namespace Sys2Proof.Machine

/-- The whole state: one field per block of the part, and the model's own `pending`, `toChime` and `free`
(assumption log entries 2, 21, 3). -/
structure State where
  /-- Trunk port. -/
  tkp : Tkp
  /-- SGA with RING_A and SEGCFG entry 0. -/
  sga : Segment
  /-- SGB with RING_B and SEGCFG entry 1. -/
  sgb : Segment
  /-- UTR: the slot records. -/
  slots : Vector SlotRec 16
  /-- UTR: the NODE table. -/
  node : Vector NodeEntry 16
  /-- LSU with LOCALCFG. -/
  lsu : Lsu
  /-- OCE and RME: the position records. -/
  positions : Vector Position 16
  /-- OCE: SEATMAP. -/
  seatmap : Vector SeatMapEntry 24
  /-- OCE: POSCFG. -/
  poscfg : Vector PosCfg 16
  /-- OCE: RULE. -/
  rules : Vector RuleEntry 24
  /-- RME: PROFILE. -/
  profiles : Vector ProfileEntry 4
  /-- RME: the reminder tick timer, with the period in ms when it runs (R135). -/
  tick : Option Nat
  /-- Chime driver. -/
  chd : Chd
  /-- Panel driver with PANELCFG. -/
  pnd : Pnd
  /-- Power manager with TIMING. -/
  pmg : Pmg
  /-- Configuration store with the PROTECT word. -/
  cfs : Cfs
  /-- MODEL: requests and withdrawals on their way to CHD inside a step. -/
  toChime : List ChimeEvent
  /-- MODEL: the counter of free values. -/
  free : Nat
  /-- MODEL: the commands waiting, first in, first out. -/
  pending : List Instr
deriving DecidableEq, Repr

/-- Reasons a step stops with a fault. The spec names no machine fault: every error of the part is a flag or a REPLY
status, so nobody raises one. -/
inductive Fault where
deriving DecidableEq, Repr

/-- Reasons a step is refused. -/
inductive Refusal where
  /-- A command without a meaning, raised by an arm of exec that is not modelled; no arm raises it. Safe: the
  machine stops. -/
  | notModelled (mnemonic : String)
deriving DecidableEq, Repr

/-- The machine right after hard reset over an erased store: STARTING, the tables at what an erased record loads
(R171, R206; log entries 5 and 7). -/
def State.reset : State :=
  { tkp := Tkp.reset, sga := Segment.reset, sgb := Segment.reset, slots := Vector.replicate 16 SlotRec.reset,
    node := Vector.replicate 16 NodeEntry.invalid, lsu := Lsu.reset,
    positions := Vector.replicate 16 Position.reset, seatmap := Vector.replicate 24 SeatMapEntry.invalid,
    poscfg := Vector.replicate 16 PosCfg.default, rules := Vector.replicate 24 RuleEntry.invalid,
    profiles := Vector.replicate 4 ProfileEntry.default, tick := none, chd := Chd.reset, pnd := Pnd.reset,
    pmg := Pmg.reset, cfs := Cfs.reset, toChime := [], free := 0, pending := [] }

end Sys2Proof.Machine
end

