-- ==== Sys2Proof/Machine/Codes.lean ====
section
/-! DEFINITION. The codes of section 10.10: an enumeration is coded by its place in the listed values from 0, a set by
one bit for each listed value, a number of several bytes high byte first. -/

namespace Sys2Proof.Machine

/-! ### Numbers and bytes -/

/-- A byte of a number, taken modulo 256. -/
def byte (n : Nat) : Byte := BitVec.ofNat 8 n

/-- The number that a list of bytes spells, high byte first. -/
def beNat (bs : List Byte) : Nat := bs.foldl (fun acc b => acc * 256 + b.toNat) 0

/-- A number in `n` bytes, high byte first. -/
def beBytes : Nat → Nat → List Byte
  | 0, _ => []
  | n + 1, v => beBytes n (v / 256) ++ [byte v]

/-- A flag takes one byte, 0 or 1. -/
def flagByte (b : Bool) : Byte := if b then 1 else 0

/-- An absent value is written 0xFF. -/
def optByte (o : Option Byte) : Byte := o.getD 0xFF

/-- A flag byte other than 0 is taken as 1 (R194). -/
def byteFlag (b : Byte) : Bool := b ≠ 0

/-- The nearest end of `lo..hi` for a value outside it (section Numbers of 00_scope.md). -/
def clamp (lo hi n : Nat) : Nat := max lo (min hi n)

/-! ### Codes of the enumerations -/

def Presence.code : Presence → Nat
  | .noSeat => 0
  | .live => 1
  | .held => 2
  | .sourceLost => 3

def Band.code : Band → Nat
  | .empty => 0
  | .light => 1
  | .small => 2
  | .large => 3

def Buckle.code : Buckle → Nat
  | .latched => 0
  | .opened => 1
  | .fault => 2

def RestraintTag.code : RestraintTag → Nat
  | .none => 0
  | .infantRear => 1
  | .childFwd => 2
  | .booster => 3

def Cls.code : Cls → Nat
  | .vacant => 0
  | .object => 1
  | .smallOccupant => 2
  | .adult => 3
  | .childSeatEmpty => 4
  | .childSeatOccupied => 5
  | .undetermined => 6

def RemState.code : RemState → Nat
  | .off => 0
  | .belted => 1
  | .grace => 2
  | .visual => 3
  | .audible => 4
  | .quiet => 5
  | .suspended => 6

def SlotState.code : SlotState → Nat
  | .empty => 0
  | .active => 1
  | .refused => 2
  | .lost => 3

/-- The bit of an event kind in the event set, in the order of R113. -/
def SlotEvent.bit : SlotEvent → Nat
  | .attached => 0
  | .refused => 1
  | .lost => 2
  | .returned => 3
  | .detached => 4
  | .swapped => 5
  | .unmappedSeat => 6
  | .countMismatch => 7

def segCode : Seg → Nat
  | .a => 0
  | .b => 1

def SegState.code : SegState → Nat
  | .stopped => 0
  | .idle => 1
  | .running => 2
  | .fault => 3

def RecordState.code : RecordState → Nat
  | .queued => 0
  | .sent => 1
  | .answered _ _ _ => 2

def AnswerStatus.code : AnswerStatus → Nat
  | .ok => 0
  | .noResponse => 1
  | .notPresent => 2
  | .segmentFault => 3
  | .segmentOff => 4

def AnchorCond.code : AnchorCond → Nat
  | .any => 0
  | .engaged => 1
  | .free => 2

/-- The outcome of a rule: ARM, then the seven classes (R45). -/
def outcomeCode : Option Cls → Nat
  | none => 0
  | some c => c.code + 1

def Layout.code : Layout → Nat
  | .fourByEight => 0
  | .eightByFour => 1

def Glyph.code : Glyph → Nat
  | .dark => 0
  | .belted => 1
  | .unbelted => 2
  | .warn => 3
  | .fault => 4

def FlashPhase.code : FlashPhase → Nat
  | .a => 0
  | .b => 1

/-- The grant: none, ALERT, TEST, then the positions (R167; DEDUCED, log entry 12). -/
def Grant.code : Grant → Nat
  | .none => 0
  | .alert => 1
  | .test => 2
  | .pos p => 3 + p.val

def Power.code : Power → Nat
  | .starting => 0
  | .run => 1
  | .parkWatch => 2
  | .sleep => 3

/-- The ignition, listed in R168 as on, off. -/
def ignitionCode : Bool → Nat
  | true => 0
  | false => 1

/-- The door, listed in R168 as closed, open. -/
def doorCode : Bool → Nat
  | false => 0
  | true => 1

def WatchSub.code : WatchSub → Nat
  | .watching => 0
  | .alerting => 1
  | .silenced => 2

def Status.code : Status → Nat
  | .ok => 0
  | .range => 1
  | .duplicate => 2
  | .order => 3
  | .chain => 4
  | .table => 5
  | .isProtected => 6
  | .locked => 7
  | .busy => 8
  | .notStaged => 9
  | .notPresent => 10
  | .state => 11
  | .starting => 12
  | .length => 13
  | .unknown => 14
  | .failed => 15
  | .cancelled => 16

/-- The source code of POSNOTE: slot × 4 + seat index, 0x40 for LOCAL, 0xFF when absent (section 10.10). -/
def sourceCode : Option Source → Nat
  | none => 0xFF
  | some .loc => 0x40
  | some (.seat s i) => s.val * 4 + i.val

/-- The cause set, bit 0 RESET to bit 6 WATCH_EXPIRED (section 10.10). -/
def Causes.code (c : Causes) : Nat :=
  c.reset.toNat + 2 * c.soft.toNat + 4 * c.ign.toNat + 8 * c.trunk.toNat + 16 * c.door.toNat +
    32 * c.buckle.toNat + 64 * c.watchExpired.toNat

/-- The anchors byte: bit 0 A, bit 1 B, 1 for ENGAGED (section 10.10). -/
def anchorCode (a b : Bool) : Nat := a.toNat + 2 * b.toNat

/-! ### Codes of the outbound kinds -/

def Kind.reply : Byte := 0x81
def Kind.posnote : Byte := 0x82
def Kind.seatnote : Byte := 0x83
def Kind.alert : Byte := 0x84
def Kind.nodeans : Byte := 0x85
def Kind.mirror : Byte := 0x86
def Kind.wakenote : Byte := 0x87

/-! ### Codes of the inbound kinds -/

def Kind.tblwr : Byte := 0x02
def Kind.tblrd : Byte := 0x03
def Kind.posqry : Byte := 0x04
def Kind.nodereq : Byte := 0x05
def Kind.stage : Byte := 0x06
def Kind.commit : Byte := 0x07
def Kind.nvcancel : Byte := 0x08
def Kind.nverase : Byte := 0x09
def Kind.protload : Byte := 0x0A
def Kind.callock : Byte := 0x0B
def Kind.sleepreq : Byte := 0x0C
def Kind.alertack : Byte := 0x0D
def Kind.chimetst : Byte := 0x0E
def Kind.paneltst : Byte := 0x0F
def Kind.clrflag : Byte := 0x10
def Kind.identq : Byte := 0x11
def Kind.softrst : Byte := 0x12

/-! ### The tables (R193) -/

/-- The table a table id names, 1..12. -/
def tableOfId : Nat → Option TableId
  | 1 => some .node
  | 2 => some .seatmap
  | 3 => some .poscfg
  | 4 => some .rule
  | 5 => some .profile
  | 6 => some .ringA
  | 7 => some .ringB
  | 8 => some .segcfg
  | 9 => some .localcfg
  | 10 => some .timing
  | 11 => some .panelcfg
  | 12 => some .protect
  | _ => none

/-- The table's id. -/
def TableId.id : TableId → Nat
  | .node => 1
  | .seatmap => 2
  | .poscfg => 3
  | .rule => 4
  | .profile => 5
  | .ringA => 6
  | .ringB => 7
  | .segcfg => 8
  | .localcfg => 9
  | .timing => 10
  | .panelcfg => 11
  | .protect => 12

/-- How many entries the table has. -/
def TableId.count : TableId → Nat
  | .node => 16
  | .seatmap => 24
  | .poscfg => 16
  | .rule => 24
  | .profile => 4
  | .ringA => 12
  | .ringB => 12
  | .segcfg => 2
  | .localcfg => 1
  | .timing => 1
  | .panelcfg => 1
  | .protect => 1

/-- Entry sizes in bytes (section 10.10). -/
def TableId.entrySize : TableId → Nat
  | .node => 7
  | .seatmap => 4
  | .poscfg => 24
  | .rule => 13
  | .profile => 8
  | .ringA => 4
  | .ringB => 4
  | .segcfg => 6
  | .localcfg => 6
  | .timing => 10
  | .panelcfg => 5
  | .protect => 1

/-- The region a table lies in; PROTECT lies in the control record (R193, R205). -/
def TableId.region : TableId → Option (Fin 4)
  | .node => some 0
  | .seatmap => some 0
  | .poscfg => some 1
  | .rule => some 2
  | .profile => some 3
  | .ringA => some 3
  | .ringB => some 3
  | .segcfg => some 3
  | .localcfg => some 1
  | .timing => some 3
  | .panelcfg => some 3
  | .protect => none

end Sys2Proof.Machine
end

