-- ==== Sys2Proof/Machine/Flags.lean ====
section
/-! DEFINITION. The error flags of TKP, SGA, SGB, LSU and CFS: their bytes, and clearing by a mask (R196, R198). -/

namespace Sys2Proof.Machine

/-- TKP flag bits: 0 BAD_FRAME, 1 BAD_CHECK, 2 BAD_KIND, 3 REPLY_OVERRUN, 4 MIRROR_DROP, 5 BAD_TABLE (section 10.10). -/
def TkpFlags.code (f : TkpFlags) : Nat :=
  f.badFrame.toNat + 2 * f.badCheck.toNat + 4 * f.badKind.toNat + 8 * f.replyOverrun.toNat +
    16 * f.mirrorDrop.toNat + 32 * f.badTable.toNat

/-- The flags of TKP less those of the mask (R198). -/
def TkpFlags.cleared (f : TkpFlags) (mask : Byte) : TkpFlags :=
  { badFrame := f.badFrame && !mask.getLsbD 0, badCheck := f.badCheck && !mask.getLsbD 1,
    badKind := f.badKind && !mask.getLsbD 2, replyOverrun := f.replyOverrun && !mask.getLsbD 3,
    mirrorDrop := f.mirrorDrop && !mask.getLsbD 4, badTable := f.badTable && !mask.getLsbD 5 }

/-- Segment flag bits: 0 BAD_CHECK, 1 UNSOLICITED, 2 LINE_STUCK (section 10.10). -/
def Segment.flagCode (g : Segment) : Nat :=
  g.badCheck.toNat + 2 * g.unsolicited.toNat + 4 * g.lineStuck.toNat

/-- The segment with the flags of the mask cleared (R198). -/
def Segment.clearFlags (g : Segment) (mask : Byte) : Segment :=
  { g with badCheck := g.badCheck && !mask.getLsbD 0, unsolicited := g.unsolicited && !mask.getLsbD 1,
           lineStuck := g.lineStuck && !mask.getLsbD 2 }

/-- LSU: bit 0 SUPPLY_LOW (section 10.10). -/
def Lsu.flagCode (l : Lsu) : Nat := l.supplyLowFlag.toNat

/-- LSU with SUPPLY_LOW cleared where the mask names it (R75, R198). -/
def Lsu.clearFlags (l : Lsu) (mask : Byte) : Lsu :=
  { l with supplyLowFlag := l.supplyLowFlag && !mask.getLsbD 0 }

/-- CFS: bit 0 PROGRAM_FAIL (section 10.10). -/
def Cfs.flagCode (c : Cfs) : Nat := c.programFail.toNat

/-- CFS with PROGRAM_FAIL cleared where the mask names it (R198, R212). -/
def Cfs.clearFlags (c : Cfs) (mask : Byte) : Cfs :=
  { c with programFail := c.programFail && !mask.getLsbD 0 }

end Sys2Proof.Machine
end

