-- ==== Sys2Proof/Machine/Chime.lean ====
section
/-! DEFINITION. The chime arbiter (08_chime_and_overhead_panel.md, R155 to R160): requests, grant and tone. -/

namespace Sys2Proof.Machine

/-- The lowest-index position whose request stands (R157). -/
def Chd.lowest (c : Chd) : Option Pos := (List.finRange 16).find? fun p => c.requests[p].isSome

/-- The release order: the alert, the test, the lowest position, none (R157). -/
def Chd.release (c : Chd) : Grant :=
  if c.alert.isSome then .alert
  else if c.test.isSome then .test
  else
    match c.lowest with
    | some p => .pos p
    | none => .none

/-- Position `p` raises its request with a tone (R156, R157). -/
def Chd.raisePos (c : Chd) (p : Pos) (tone : Tone) : Chd :=
  { c with requests := put c.requests p (some tone), grant := if c.grant = .none then .pos p else c.grant }

/-- Position `p`'s request is withdrawn; none standing, nothing changes (R156, R157). -/
def Chd.withdrawPos (c : Chd) (p : Pos) : Chd :=
  if c.requests[p].isSome then
    let c' := { c with requests := put c.requests p none }
    { c' with grant := if c.grant = .pos p then c'.release else c.grant }
  else c

/-- CHD takes one request or withdrawal whole (R156). -/
def Chd.take (c : Chd) : ChimeEvent → Chd
  | .raise p tone => c.raisePos p tone
  | .withdraw p => c.withdrawPos p

/-- CHIMETST at CHD: the test is raised, or restarted from tone 0 (R157, R159). -/
def Chd.raiseTest (c : Chd) : Chd :=
  if c.test.isSome then { c with test := some 0 }
  else { c with test := some 0, grant := if c.grant = .alert then .alert else .test }

/-- The test request ends (R159). -/
def Chd.endTest (c : Chd) : Chd :=
  let c' := { c with test := none }
  { c' with grant := if c.grant = .test then c'.release else c.grant }

/-- PMG raises the alert request; a standing one keeps its phase (R156, R157, R158). -/
def Chd.raiseAlert (c : Chd) : Chd :=
  if c.alert.isSome then c else { c with alert := some .tone3, grant := .alert }

/-- PMG withdraws the alert request if it stands (R157). -/
def Chd.withdrawAlert (c : Chd) : Chd :=
  if c.alert.isSome then
    let c' := { c with alert := none }
    { c' with grant := if c.grant = .alert then c'.release else c.grant }
  else c

/-- The tone of the alert pattern (R158). -/
def AlertPhase.tone : AlertPhase → Tone
  | .tone3 => 3
  | .tone1 => 1

/-- The tone on CHIME, none when it is silent (R158). -/
def Chd.output (c : Chd) : Option Tone :=
  match c.grant with
  | .none => none
  | .alert => c.alert.map AlertPhase.tone
  | .test => c.test
  | .pos p => c.requests[p]

/-- The frequency of a tone in Hz (R158). -/
def toneHertz : Tone → Nat
  | 0 => 650
  | 1 => 1300
  | 2 => 2100
  | 3 => 2900

/-- The frequency in Hz of the square wave on CHIME, none when it is silent (R158). -/
def Chd.frequency (c : Chd) : Option Nat := c.output.map toneHertz

/-- The position a request or withdrawal concerns. -/
def ChimeEvent.pos : ChimeEvent → Pos
  | .raise p _ => p
  | .withdraw p => p

/-- The event is a request. -/
def ChimeEvent.isRaise : ChimeEvent → Bool
  | .raise _ _ => true
  | .withdraw _ => false

/-- The order in which events reach CHD: the free value picks whose event comes next, and the events of one position
keep their order (R149, R156; log entry 4). -/
def arrivals (n : Nat) : Nat → List ChimeEvent → List ChimeEvent
  | 0, _ => []
  | _ + 1, [] => []
  | k + 1, e :: es =>
    let evs := e :: es
    let p := (evs.getD (Config.chimeArrival n k % evs.length) e).pos
    let first := (evs.find? fun x => x.pos = p).getD e
    first :: arrivals n k (evs.eraseP fun x => x.pos = p)

/-- The order does not matter: all events withdraw, or all are of one position. -/
def orderFree (evs : List ChimeEvent) : Bool :=
  evs.all (fun e => !e.isRaise) || evs.all fun e => evs.all fun x => x.pos = e.pos

/-- The events on their way in a step, in the order in which CHD takes them. -/
def arrivalOrder (n : Nat) (evs : List ChimeEvent) : List ChimeEvent :=
  if orderFree evs then evs else arrivals n evs.length evs

/-- CHD takes every event on its way (R156). -/
def deliver (s : State) : State :=
  if s.toChime = [] then s
  else
    { s with
      chd := (arrivalOrder s.free s.toChime).foldl Chd.take s.chd
      toChime := []
      free := s.free + 1 }

end Sys2Proof.Machine
end

