-- ==== Sys2Proof/Machine/Load.lean ====
section
/-! DEFINITION. The load arithmetic of OCE (02_load_arithmetic.md): cells to load, filter, band, buckle. -/

namespace Sys2Proof.Machine

/-- Cell correction of one cell (R26). -/
def correct (r o : Nat) : Nat := if o ≤ r then r - o else 0

/-- The corrected cells of a block (R26). -/
def correctedCells (cfg : PosCfg) (cells : Vector Count 8) : List Nat :=
  (List.finRange 8).map fun i => correct cells[i].val cfg.offsets[i].val

/-- The load L = floor(S × g / 64) (R27, R28). -/
def loadOf (cfg : PosCfg) (cells : Vector Count 8) : Nat :=
  (correctedCells cfg cells).sum * cfg.gain / 64

/-- The footprint: the corrected cells at or above T_cell (R29). -/
def footprintOf (cfg : PosCfg) (cells : Vector Count 8) : Nat :=
  (correctedCells cfg cells).countP fun c => cfg.tCell ≤ c

/-- The filter step: F plus floor((L − F) / 2^k), the floor toward minus infinity (R31). -/
def filterStep (shift : Nat) (f l : Nat) : Nat :=
  ((f : Int) + ((l : Int) - f).fdiv (2 ^ shift)).toNat

/-- The band of a seeded load (R33). -/
def seedBand (cfg : PosCfg) (f : Nat) : Band :=
  if f < cfg.tObj then .empty
  else if f < cfg.tSmall then .light
  else if f < cfg.tAdult then .small
  else .large

/-- The next band up, if any. -/
def Band.up : Band → Option Band
  | .empty => some .light
  | .light => some .small
  | .small => some .large
  | .large => none

/-- The next band down, if any. -/
def Band.down : Band → Option Band
  | .empty => none
  | .light => some .empty
  | .small => some .light
  | .large => some .small

/-- T(b), the threshold at which a band begins; EMPTY begins at 0 (section 2.4). -/
def Band.threshold (cfg : PosCfg) : Band → Nat
  | .empty => 0
  | .light => cfg.tObj
  | .small => cfg.tSmall
  | .large => cfg.tAdult

/-- The upward pass of R34, at most `n` steps. -/
def bandRise (cfg : PosCfg) (f : Nat) : Nat → Band → Band
  | 0, b => b
  | n + 1, b =>
    match b.up with
    | some b' => if b'.threshold cfg ≤ f then bandRise cfg f n b' else b
    | none => b

/-- The downward pass of R34, at most `n` steps. -/
def bandFall (cfg : PosCfg) (f : Nat) : Nat → Band → Band
  | 0, b => b
  | n + 1, b =>
    match b.down with
    | some b' => if f < b.threshold cfg - cfg.hyst then bandFall cfg f n b' else b
    | none => b

/-- The band after a filtered load: the upward pass, and the downward pass only if it moved nothing (R34). -/
def moveBand (cfg : PosCfg) (f : Nat) (b : Band) : Band :=
  let up := bandRise cfg f 3 b
  if up = b then bandFall cfg f 3 b else up

/-- The buckle stage of R38 on the debounced buckle and the candidate. -/
def debounce (reported : Buckle) (now : Buckle) (cand : Option Buckle) : Buckle × Option Buckle :=
  if reported = now then (now, none)
  else if cand = some reported then (reported, none)
  else (now, some reported)

/-- The buckle stage on a position record (R38). -/
def Position.debounceBuckle (r : Position) (reported : Buckle) : Position :=
  let d := debounce reported r.buckle r.candidate
  { r with buckle := d.1, candidate := d.2 }

/-- The cell stages, filter, band, anchors and tag of one block, the load seeded or filtered (R24, R30, R31, R41,
R42). -/
def Position.arithmetic (cfg : PosCfg) (b : Block) (seed : Bool) (r : Position) : Position :=
  let l := loadOf cfg b.cells
  let f := if seed then l else filterStep cfg.shift.val r.load l
  { r with
    load := f
    footprint := footprintOf cfg b.cells
    band := if seed then seedBand cfg f else moveBand cfg f r.band
    anchorA := b.anchorA
    anchorB := b.anchorB
    tag := b.tag
    seedDue := r.seedDue && !seed }

end Sys2Proof.Machine
end

