-- ==== Sys2Proof/Machine/Classify.lean ====
section
/-! DEFINITION. Rule evaluation and confirmation of OCE (03_classification_and_confirmation.md). -/

namespace Sys2Proof.Machine

/-- The RULE table. -/
abbrev Rules := Vector RuleEntry 24

/-- An anchor condition holds for a reading, true for ENGAGED (R46). -/
def AnchorCond.holds : AnchorCond → Bool → Bool
  | .any, _ => true
  | .engaged, x => x
  | .free, x => !x

/-- Every condition of an entry holds at position `p` (R46). -/
def RuleEntry.matchesAt (e : RuleEntry) (p : Pos) (r : Position) : Bool :=
  e.positions.getLsbD p.val && e.bands.getLsbD r.band.code && e.fpMin ≤ r.footprint && r.footprint ≤ e.fpMax &&
    e.buckles.getLsbD r.buckle.code && e.condA.holds r.anchorA && e.condB.holds r.anchorB &&
    e.tags.getLsbD r.tag.code

/-- Rule `i` is armed in a map. -/
def armedIn (armed : Vector Nat 24) (i : RuleIx) : Bool := armed[i] ≠ 0

/-- Eligibility of R53: valid, the position in its set, its predecessor none or armed in the snapshot. -/
def eligible (rules : Rules) (snap : Vector Nat 24) (p : Pos) (i : RuleIx) : Bool :=
  rules[i].valid && rules[i].positions.getLsbD p.val &&
    match rules[i].pred with
    | none => true
    | some j => armedIn snap j

/-- The scan of R54 over a list of indexes: the ARM rules noted, and the matched class rule with its class. -/
def scanRules (rules : Rules) (snap : Vector Nat 24) (p : Pos) (r : Position) :
    List RuleIx → List RuleIx × Option (RuleIx × Cls)
  | [] => ([], none)
  | i :: is =>
    if eligible rules snap p i && rules[i].matchesAt p r then
      match rules[i].outcome with
      | some c => ([], some (i, c))
      | none =>
        let rest := scanRules rules snap p r is
        (i :: rest.1, rest.2)
    else scanRules rules snap p r is

/-- The chain of an entry: itself and the entries reached by following predecessor links (R49). -/
def chainOf (rules : Rules) : Nat → RuleIx → List RuleIx
  | 0, i => [i]
  | n + 1, i =>
    match rules[i].pred with
    | none => [i]
    | some j => i :: chainOf rules n j

/-- The ancestors of an entry (R56). -/
def ancestors (rules : Rules) (i : RuleIx) : List RuleIx := (chainOf rules 24 i).tail

/-- The matching rules of a block: its noted ARM rules and its matched class rule (R54). -/
def matchingRules (scan : List RuleIx × Option (RuleIx × Cls)) : List RuleIx :=
  scan.1 ++ (scan.2.map (·.1)).toList

/-- The armed map after the scan: a noted rule and an armed ancestor of a matching rule at their own windows, every
other entry one lower (R55, R56, R57). -/
def armedAfter (rules : Rules) (snap : Vector Nat 24) (scan : List RuleIx × Option (RuleIx × Cls)) : Vector Nat 24 :=
  Vector.ofFn fun i =>
    if i ∈ scan.1 ∨ (armedIn snap i ∧ i ∈ (matchingRules scan).flatMap (ancestors rules)) then rules[i].window
    else snap[i] - 1

/-- The band default candidate (R58). -/
def bandDefault : Band → Cls
  | .empty => .vacant
  | .light => .object
  | .small => .undetermined
  | .large => .adult

/-- The candidate of a scan (R54, R58). -/
def candidateOf (scan : List RuleIx × Option (RuleIx × Cls)) (b : Band) : Cls :=
  match scan.2 with
  | some (_, c) => c
  | none => bandDefault b

/-- The required count of a candidate (R60). -/
def requiredCount (cfg : PosCfg) : Cls → Nat
  | .vacant => cfg.downConfirm
  | .object => cfg.downConfirm
  | .smallOccupant => cfg.upConfirm
  | .adult => cfg.upConfirm
  | .childSeatEmpty => cfg.upConfirm
  | .childSeatOccupied => cfg.upConfirm
  | .undetermined => cfg.upConfirm

/-- The pending count a candidate reaches at this block (R61, steps 2 and 3). -/
def nextCount (pending : Option Pending) (c : Cls) : Nat :=
  match pending with
  | some q => if q.cls = c then q.count + 1 else 1
  | none => 1

/-- Confirmation of one candidate (R61, R62, R63): a new VACANT empties the armed map. -/
def Position.confirm (cfg : PosCfg) (c : Cls) (r : Position) : Position :=
  if c = r.cls then { r with pending := none }
  else
    let n := nextCount r.pending c
    if requiredCount cfg c ≤ n then
      { r with cls := c, pending := none, owed := true,
               armed := if c = .vacant then Vector.replicate 24 0 else r.armed }
    else { r with pending := some { cls := c, count := n } }

/-- Rule evaluation and confirmation of one block (R51, R52). -/
def Position.classify (cfg : PosCfg) (rules : Rules) (p : Pos) (r : Position) : Position :=
  let scan := scanRules rules r.armed p r (List.finRange 24)
  Position.confirm cfg (candidateOf scan r.band) { r with armed := armedAfter rules r.armed scan }

/-- The handling of one block at a position by OCE (R6 to R9, R11, R24, R37). `src` is recorded when the block takes
the position out of NO_SEAT. -/
def Position.takeBlock (cfg : PosCfg) (rules : Rules) (p : Pos) (src : Source) (b : Block) (r : Position) : Position :=
  match r.presence, b.supplyLow with
  | .noSeat, false =>
    Position.classify cfg rules p (Position.arithmetic cfg b true
      { r with presence := .live, source := some src, cls := .undetermined, buckle := b.buckle, candidate := none,
               seedDue := false, owed := true })
  | .noSeat, true =>
    { r with presence := .held, source := some src, buckle := b.buckle, candidate := none, seedDue := true,
             owed := true }
  | pr, true =>
    let d := r.debounceBuckle b.buckle
    { d with presence := .held, owed := r.owed || pr ≠ .held || d.buckle ≠ r.buckle }
  | pr, false =>
    let d := r.debounceBuckle b.buckle
    Position.classify cfg rules p (Position.arithmetic cfg b r.seedDue
      { d with presence := .live, owed := r.owed || pr ≠ .live || d.buckle ≠ r.buckle })

/-- Entry to SOURCE_LOST (R10). -/
def Position.lose (r : Position) : Position :=
  { r with presence := .sourceLost, armed := Vector.replicate 24 0, pending := none, candidate := none, owed := true }

/-- A position whose presence is not NO_SEAT and whose source names a slot (R4). -/
def Position.fedBy (r : Position) (slot : Slot) : Bool :=
  r.presence ≠ .noSeat &&
    match r.source with
    | some (.seat s _) => s = slot
    | _ => false

end Sys2Proof.Machine
end

