-- ==== Sys2Proof/Machine/Reminder.lean ====
section
/-! DEFINITION. The reminder of one position (07_belt_reminder_escalation.md): evaluation, audible test and counting. -/

namespace Sys2Proof.Machine

/-- What RME hands CHD for one position, in order (R149). -/
inductive ChimeCall where
  | raise (tone : Tone)
  | withdraw
deriving DecidableEq, Repr

/-- The inputs of an evaluation (R136). -/
structure RemInputs where
  ignition : Bool
  moving : Bool
  profile : ProfileEntry
  presence : Presence
  cls : Cls
  buckle : Buckle
deriving DecidableEq, Repr

/-- A position's request stands: AUDIBLE in phase ON (R149). -/
def Reminder.sounding (r : Reminder) : Bool := r.state = .audible && r.phase = some .on

/-- The withdrawal that leaving an ON phase makes (R149). -/
def Reminder.leave (r : Reminder) : List ChimeCall := if r.sounding then [.withdraw] else []

/-- The confirmed class is in the profile's required classes (R133). -/
def required (prof : ProfileEntry) (c : Cls) : Bool := prof.required.getLsbD c.code

/-- The four tests of R138: the state the first that holds decides. -/
def decided (i : RemInputs) : Option RemState :=
  if !i.ignition ∨ i.presence = .noSeat then some .off
  else if i.presence = .sourceLost ∨ i.buckle = .fault then some .suspended
  else if !required i.profile i.cls then some .off
  else if i.buckle = .latched then some .belted
  else none

/-- VISUAL expired (R132). -/
def Reminder.visualExpired (r : Reminder) : Bool := r.state = .visual && r.ticks = 0

/-- Entry to an ON phase (R143). -/
def Reminder.enterOn (prof : ProfileEntry) (r : Reminder) : Reminder :=
  { r with state := .audible, phase := some .on, ticks := prof.burstOn }

/-- Entry to QUIET: bursts done is kept (R132). -/
def Reminder.enterQuiet (r : Reminder) : Reminder := { r with state := .quiet, phase := none, ticks := 0 }

/-- VISUAL expired, bursts done kept (R140, R146). -/
def Reminder.expire (r : Reminder) : Reminder := { r with state := .visual, phase := none, ticks := 0 }

/-- The audible test of a VISUAL expired position (R142). -/
def audibleTest (prof : ProfileEntry) (moving : Bool) (r : Reminder) : Reminder × List ChimeCall :=
  if prof.bursts ≤ r.bursts then (r.enterQuiet, [])
  else if !prof.speedGated ∨ moving then (r.enterOn prof, [.raise prof.tone])
  else (r.expire, [])

/-- Entry to VISUAL (R140). -/
def enterVisual (prof : ProfileEntry) (moving : Bool) (r : Reminder) : Reminder × List ChimeCall :=
  let v := { r with state := .visual, phase := none, ticks := prof.visual }
  if prof.visual = 0 then audibleTest prof moving v else (v, [])

/-- Entry to GRACE (R140). -/
def enterGrace (prof : ProfileEntry) (moving : Bool) (r : Reminder) : Reminder × List ChimeCall :=
  let g := { r with state := .grace, phase := none, ticks := prof.grace, bursts := 0 }
  if prof.grace = 0 then enterVisual prof moving g else (g, [])

/-- The evaluation of an unbelted position that is required to belt (R139). -/
def evaluateUnbelted (prof : ProfileEntry) (moving : Bool) (r : Reminder) : Reminder × List ChimeCall :=
  match r.state with
  | .off => enterGrace prof moving r
  | .suspended => enterGrace prof moving r
  | .belted => if moving then enterVisual prof moving r else enterGrace prof moving r
  | .grace => (r, [])
  | .visual => if r.ticks = 0 then audibleTest prof moving r else (r, [])
  | .audible =>
    if prof.speedGated ∧ !moving then (r.expire, r.leave)
    else if prof.bursts ≤ r.bursts then (r.enterQuiet, r.leave)
    else (r, [])
  | .quiet => (r, [])

/-- The evaluation of a position's reminder (R138, R139). -/
def evaluate (i : RemInputs) (r : Reminder) : Reminder × List ChimeCall :=
  match decided i with
  | some st =>
    if st = r.state then (r, []) else ({ state := st, phase := none, ticks := 0, bursts := 0 }, r.leave)
  | none => evaluateUnbelted i.profile i.moving r

/-- A completed ON phase (R144). -/
def onComplete (prof : ProfileEntry) (r : Reminder) : Reminder × List ChimeCall :=
  let d := { r with ticks := 0, bursts := r.bursts + 1 }
  if prof.bursts ≤ d.bursts then (d.enterQuiet, [.withdraw])
  else if prof.burstGap = 0 then (d.enterOn prof, [.withdraw, .raise prof.tone])
  else ({ d with phase := some .gap, ticks := prof.burstGap }, [.withdraw])

/-- The count of a state at a tick (R141, R144, R145). -/
def countTick (prof : ProfileEntry) (moving : Bool) (r : Reminder) : Reminder × List ChimeCall :=
  let d := { r with ticks := r.ticks - 1 }
  match r.state, r.phase with
  | .grace, _ => if d.ticks = 0 then enterVisual prof moving d else (d, [])
  | .visual, _ => if r.ticks = 0 then (r, []) else if d.ticks = 0 then audibleTest prof moving d else (d, [])
  | .audible, some .on => if d.ticks = 0 then onComplete prof d else (d, [])
  | .audible, some .gap => if d.ticks = 0 then (d.enterOn prof, [.raise prof.tone]) else (d, [])
  | _, _ => (r, [])

/-- The handling of a reminder tick: the evaluation, and the count if it left the state unchanged (R141). -/
def tickReminder (i : RemInputs) (r : Reminder) : Reminder × List ChimeCall :=
  let e := evaluate i r
  if e.1.state = r.state then
    let c := countTick i.profile i.moving e.1
    (c.1, e.2 ++ c.2)
  else e

/-- The glyph of a reminder state (R150). -/
def RemState.glyph : RemState → Glyph
  | .off => .dark
  | .belted => .belted
  | .grace => .unbelted
  | .visual => .warn
  | .audible => .warn
  | .quiet => .warn
  | .suspended => .fault

/-- A call to CHD as an event of position `p`. -/
def ChimeCall.event (p : Pos) : ChimeCall → ChimeEvent
  | .raise tone => .raise p tone
  | .withdraw => .withdraw p

end Sys2Proof.Machine
end

