-- ==== Sys2Proof/Machine/Ops.lean ====
section
/-! DEFINITION. The shared operations over the state: records and segments read and written, notices owed, reminders
applied, positions cleared, lost and fed. -/

namespace Sys2Proof.Machine

/-! ### Named reads and writes -/

/-- The segment controller of a segment. -/
def State.seg (s : State) : Seg → Segment
  | .a => s.sga
  | .b => s.sgb

/-- The segment controller of a segment replaced. -/
def State.setSeg (s : State) (g : Seg) (x : Segment) : State :=
  match g with
  | .a => { s with sga := x }
  | .b => { s with sgb := x }

/-- The segment controller of a segment changed. -/
def State.modSeg (s : State) (g : Seg) (f : Segment → Segment) : State := s.setSeg g (f (s.seg g))

/-- Position record `p` replaced. -/
def State.setPos (s : State) (p : Pos) (r : Position) : State := { s with positions := put s.positions p r }

/-- Slot record `i` replaced. -/
def State.setSlot (s : State) (i : Slot) (r : SlotRec) : State := { s with slots := put s.slots i r }

/-- The trunk port changed. -/
def State.modTkp (s : State) (f : Tkp → Tkp) : State := { s with tkp := f s.tkp }

/-- The power manager changed. -/
def State.modPmg (s : State) (f : Pmg → Pmg) : State := { s with pmg := f s.pmg }

/-- TKP's error flags changed (R196). -/
def State.modFlags (s : State) (f : TkpFlags → TkpFlags) : State :=
  s.modTkp fun t => { t with flags := f t.flags }

/-! ### The reminder of a position in the state -/

/-- The PROFILE entry a position uses (R134). -/
def State.profileOf (s : State) (p : Pos) : ProfileEntry := s.profiles[s.poscfg[p].profile]

/-- The inputs of position `p`'s evaluation as they stand (R136). -/
def State.remInputs (s : State) (p : Pos) : RemInputs :=
  { ignition := s.pmg.ignition, moving := s.pmg.moving, profile := s.profileOf p,
    presence := s.positions[p].presence, cls := s.positions[p].cls, buckle := s.positions[p].buckle }

/-- The outcome of RME's handling at position `p`: the reminder fields, the calls to CHD, and, when the state is
another than before, the glyph and the notice owed (R149, R150, R151). -/
def State.applyReminder (s : State) (p : Pos) (out : Reminder × List ChimeCall) : State :=
  let r := s.positions[p]
  let changed := out.1.state ≠ r.rem.state
  { s with
    positions := put s.positions p { r with rem := out.1, owed := r.owed || changed }
    pnd := { s.pnd with image := if changed then put s.pnd.image p out.1.state.glyph else s.pnd.image }
    toChime := s.toChime ++ out.2.map (ChimeCall.event p) }

/-- RME evaluates position `p` (R137). -/
def State.evalAt (s : State) (p : Pos) : State := s.applyReminder p (evaluate (s.remInputs p) s.positions[p].rem)

/-- RME evaluates every position (R137). -/
def State.evalAll (s : State) : State := (List.finRange 16).foldl State.evalAt s

/-! ### Positions -/

/-- A position leaves the watch set (R176). -/
def State.leaveWatch (s : State) (p : Pos) : State :=
  s.modPmg fun m => { m with watchSet := m.watchSet.filter fun q => q ≠ p }

/-- Position `p` cleared to its reset state: reminder OFF, DARK written, its request withdrawn, notice owed set, and
out of the watch set as its presence becomes NO_SEAT (R4, R150, R176). -/
def State.clearPos (s : State) (p : Pos) : State :=
  let r := s.positions[p]
  { s with
    positions := put s.positions p Position.reset
    pnd := { s.pnd with image := put s.pnd.image p .dark }
    toChime := s.toChime ++ r.rem.leave.map (ChimeCall.event p)
    pmg := { s.pmg with watchSet := s.pmg.watchSet.filter fun q => q ≠ p } }

/-- The clearing that an event makes at a position that is not in NO_SEAT (R4, R19). -/
def State.clearIfSeated (s : State) (p : Pos) : State :=
  if s.positions[p].presence = .noSeat then s else s.clearPos p

/-- Every position that a slot feeds is cleared (R4). -/
def State.clearFedBy (s : State) (slot : Slot) : State :=
  (List.finRange 16).foldl (fun t p => if t.positions[p].fedBy slot then t.clearPos p else t) s

/-- A position whose source names a slot and whose presence is LIVE or HELD (R10). -/
def Position.losable (r : Position) (slot : Slot) : Bool :=
  r.fedBy slot && (r.presence = .live || r.presence = .held)

/-- Every LIVE or HELD position that a slot feeds goes to SOURCE_LOST, and RME re-evaluates it (R10). -/
def State.loseFedBy (s : State) (slot : Slot) : State :=
  (List.finRange 16).foldl
    (fun t p => if t.positions[p].losable slot then (t.setPos p t.positions[p].lose).evalAt p else t) s

/-- The classes that take a watched position out of the watch set (R176). -/
def Cls.leavesWatch : Cls → Bool
  | .vacant => true
  | .object => true
  | .childSeatEmpty => true
  | .smallOccupant => false
  | .adult => false
  | .childSeatOccupied => false
  | .undetermined => false

/-- Presence, confirmed class or debounced buckle differ, the changes that bring an evaluation (R137). -/
def remChanged (a b : Position) : Bool := a.presence ≠ b.presence || a.cls ≠ b.cls || a.buckle ≠ b.buckle

/-- Position `p` takes a block: OCE handles it whole, then RME evaluates if an input changed, then PMG looks at a
changed class (R24, R137, R176). -/
def State.takeBlock (s : State) (p : Pos) (src : Source) (b : Block) : State :=
  let old := s.positions[p]
  let new := old.takeBlock s.poscfg[p] s.rules p src b
  let s1 := s.setPos p new
  let s2 := if remChanged old new then s1.evalAt p else s1
  if new.cls ≠ old.cls ∧ new.cls.leavesWatch then s2.leaveWatch p else s2

end Sys2Proof.Machine
end

