-- ==== Sys2Proof/Machine/Local.lean ====
section
/-! DEFINITION. LSU (04_front_row_local_sense.md): scans, conversions, local reports and the supply monitor. -/

namespace Sys2Proof.Machine

/-- The nine channels of position 0's group (R70). -/
def group0 : List Channel := (List.finRange 8).map Channel.mat0 ++ [.bkl0]

/-- The nine channels of position 1's group (R70). -/
def group1 : List Channel := (List.finRange 8).map Channel.mat1 ++ [.bkl1]

/-- The channels of a scan with the given groups, in the order of R70. -/
def scanChannels (with0 with1 : Bool) : List Channel :=
  (if with0 then group0 else []) ++ (if with1 then group1 else []) ++ [.vhalf]

/-- The place of a channel's result, in the scan order of R70. -/
def Channel.index : Channel → Fin 19
  | .mat0 i => Fin.ofNat 19 i.val
  | .bkl0 => 8
  | .mat1 i => Fin.ofNat 19 (9 + i.val)
  | .bkl1 => 17
  | .vhalf => 18

/-- A scan starts with a copy of LOCALCFG, the groups given each fitted in the copy; `timer` is the interval timer
after (R69, R70, R79). -/
def Lsu.startScan (l : Lsu) (want0 want1 : Bool) (timer : Option Nat) : Lsu :=
  { l with copy := some l.cfg, remaining := scanChannels (want0 && l.cfg.fitted0) (want1 && l.cfg.fitted1),
           followUp := false, timer := timer }

/-- The scan that the power state calls for: in RUN both groups and the interval timer, in PARK_WATCH the groups of
the watched front positions, if any (R69, R79). -/
def State.startScan (s : State) : State :=
  let w0 := decide (0 ∈ s.pmg.watchSet)
  let w1 := decide (1 ∈ s.pmg.watchSet)
  match s.pmg.power with
  | .run => { s with lsu := s.lsu.startScan true true (some s.lsu.cfg.interval) }
  | .parkWatch => if w0 || w1 then { s with lsu := s.lsu.startScan w0 w1 none } else s
  | _ => s

/-- A scan start that waits for a scan in progress to complete (R79; log entry 18). -/
def State.requestScan (s : State) : State :=
  if s.lsu.remaining = [] then s.startScan else { s with lsu := { s.lsu with followUp := true } }

/-- The reported buckle of a buckle result (R72). -/
def buckleOfResult (n : Nat) : Buckle :=
  if n ≤ 99 then .fault else if n ≤ 399 then .latched else if n ≤ 799 then .opened else .fault

/-- The supply state after a VHALF count (R74). -/
def supplyAfter (c : LocalCfg) (low : Bool) (count : Nat) : Bool :=
  if low then count < c.threshold + c.hyst else count < c.threshold

/-- The VHALF conversion: last supply count, supply state, and SUPPLY_LOW on a change to LOW (R74, R75). -/
def Lsu.supplyUpdate (l : Lsu) (count : Count) : Lsu :=
  let low := supplyAfter (l.copy.getD l.cfg) l.low count.val
  { l with lastSupply := count, low := low, supplyLowFlag := l.supplyLowFlag || (low && !l.low) }

/-- The local report of position 0: anchors FREE, tag NONE (R71, R73). -/
def Lsu.report0 (l : Lsu) : Block :=
  { cells := Vector.ofFn fun i => l.results[(Channel.mat0 i).index], buckle := buckleOfResult l.results[Channel.bkl0.index].val,
    anchorA := false, anchorB := false, tag := .none, supplyLow := l.low }

/-- The local report of position 1: anchors from ANC1A and ANC1B, tag NONE (R71, R73). -/
def Lsu.report1 (l : Lsu) (ancA ancB : Bool) : Block :=
  { cells := Vector.ofFn fun i => l.results[(Channel.mat1 i).index], buckle := buckleOfResult l.results[Channel.bkl1.index].val,
    anchorA := ancA, anchorB := ancB, tag := .none, supplyLow := l.low }

/-- What the completed conversion of a channel brings beyond its result: at a group's ninth the local report when the
seat is fitted in LOCALCFG as it stands, at VHALF the supply update (R71, R74). -/
def State.afterConversion (s : State) (c : Channel) (result : Count) (ancA ancB : Bool) : State :=
  match c with
  | .bkl0 =>
    if s.lsu.cfg.fitted0 then
      ({ s with lsu := { s.lsu with seq0 := s.lsu.seq0 + 1 } }).takeBlock 0 .loc s.lsu.report0
    else s
  | .bkl1 =>
    if s.lsu.cfg.fitted1 then
      ({ s with lsu := { s.lsu with seq1 := s.lsu.seq1 + 1 } }).takeBlock 1 .loc (s.lsu.report1 ancA ancB)
    else s
  | .vhalf => { s with lsu := s.lsu.supplyUpdate result }
  | .mat0 _ => s
  | .mat1 _ => s

/-- A conversion completes (R70, R71, R74): its result is written, its channel leaves the scan, and a scan start that
waited follows the last one. -/
def State.conversion (s : State) (result : Count) (ancA ancB : Bool) : State :=
  match s.lsu.remaining with
  | [] => s
  | c :: cs =>
    let s1 := { s with lsu := { s.lsu with results := put s.lsu.results c.index result, remaining := cs } }
    let s2 := s1.afterConversion c result ancA ancB
    if cs = [] ∧ s2.lsu.followUp then s2.startScan else s2

/-- Entry to SLEEP and soft reset abandon the scan: finished results stand, IDLE, the timer stopped (R80). -/
def Lsu.abandon (l : Lsu) : Lsu := { l with remaining := [], followUp := false, timer := none }

/-- Soft reset sets both seq counters to 0 (R80). -/
def Lsu.softReset (l : Lsu) : Lsu := { l.abandon with seq0 := 0, seq1 := 0 }

/-- Entry to PARK_WATCH stops the scan interval timer (R79). -/
def Lsu.enterWatch (l : Lsu) : Lsu := { l with followUp := false, timer := none }

/-- LSU after hard reset over a loaded LOCALCFG (R68). -/
def Lsu.boot (cfg : LocalCfg) : Lsu := { Lsu.reset with cfg := cfg }

end Sys2Proof.Machine
end

