-- ==== Sys2Proof/Machine/Panel.lean ====
section
/-! DEFINITION. PND (08_chime_and_overhead_panel.md, R161 to R166): lamps, the scan frame, the panel test. -/

namespace Sys2Proof.Machine

/-- Lines of a layout (R163). -/
def Layout.lines : Layout → Nat
  | .fourByEight => 8
  | .eightByFour => 4

/-- Commons of a layout (R163). -/
def Layout.commons : Layout → Nat
  | .fourByEight => 4
  | .eightByFour => 8

/-- The common of position `p`'s lamps: floor(2p / lines) (R163). -/
def lampCommon (l : Layout) (p : Pos) : Nat := 2 * p.val / l.lines

/-- The line of position `p`'s green lamp: 2p mod lines (R163). -/
def greenLine (l : Layout) (p : Pos) : Nat := 2 * p.val % l.lines

/-- The line of position `p`'s red lamp: (2p + 1) mod lines (R163). -/
def redLine (l : Layout) (p : Pos) : Nat := (2 * p.val + 1) % l.lines

/-- The green lamp of a glyph is lit (R161). -/
def Glyph.green : Glyph → FlashPhase → Bool
  | .belted, _ => true
  | .fault, .a => true
  | _, _ => false

/-- The red lamp of a glyph is lit (R161). -/
def Glyph.red : Glyph → FlashPhase → Bool
  | .unbelted, _ => true
  | .warn, .a => true
  | .fault, .b => true
  | _, _ => false

/-- The glyph a position shows: DARK when its fitted flag is clear (R164). -/
def Pnd.shown (n : Pnd) (cfg : PanelCfg) (p : Pos) : Glyph :=
  if cfg.fitted.getLsbD p.val then n.image[p] else .dark

/-- A line as a bit of PLIN. -/
def lineBit (i : Nat) : BitVec 8 := BitVec.ofNat 8 (2 ^ i)

/-- The lines position `p` lights in its slot (R161, R164, R165). -/
def Pnd.litLines (n : Pnd) (cfg : PanelCfg) (p : Pos) : BitVec 8 :=
  let g := n.shown cfg p
  (if n.frameTest ∨ g.green n.flash then lineBit (greenLine cfg.layout p) else 0) |||
    (if n.frameTest ∨ g.red n.flash then lineBit (redLine cfg.layout p) else 0)

/-- The lines driven in a common's slot (R163). -/
def Pnd.slotLines (n : Pnd) (cfg : PanelCfg) (c : Nat) : BitVec 8 :=
  ((List.finRange 16).filter fun p => lampCommon cfg.layout p = c).foldl (fun acc p => acc ||| n.litLines cfg p) 0

/-- A scan frame starts: a fresh copy of PANELCFG, the test as it runs, common 0 to come (R162, R163, R165). -/
def Pnd.frameStart (n : Pnd) : Pnd :=
  { n with copy := some n.cfg, frameTest := n.test, common := 0, pcom := none, plin := 0 }

/-- The slot of the next common starts: the common and the lines of its lit lamps are driven; with enable clear and no
test nothing is (R163, R164). -/
def Pnd.slotStart (n : Pnd) : Pnd :=
  match n.copy with
  | none => n
  | some cfg =>
    if n.common < cfg.layout.commons then
      if cfg.enable ∨ n.frameTest then
        { n with common := n.common + 1, pcom := some (Fin.ofNat 8 n.common), plin := n.slotLines cfg n.common }
      else { n with common := n.common + 1, pcom := none, plin := 0 }
    else n

/-- Entry to RUN: a stopped scan starts with a frame at common 0 and a fresh copy; the flash clock starts in phase A
(R161, R166). -/
def Pnd.enterRun (n : Pnd) : Pnd :=
  if n.scanning then { n with flash := .a } else { n.frameStart with scanning := true, flash := .a }

/-- Entry to SLEEP: the test ends, scan and flash clock stop, nothing is driven, the image is kept (R166). -/
def Pnd.enterSleep (n : Pnd) : Pnd :=
  { n with test := false, scanning := false, copy := none, frameTest := false, common := 8, pcom := none, plin := 0 }

/-- Soft reset ends the test and writes DARK everywhere (R166). -/
def Pnd.softReset (n : Pnd) : Pnd := { n with test := false, image := Vector.replicate 16 .dark }

/-- PND after hard reset over a loaded PANELCFG (R166). -/
def Pnd.boot (cfg : PanelCfg) : Pnd := { Pnd.reset with cfg := cfg }

end Sys2Proof.Machine
end

