-- ==== Sys2Proof/Machine/Store.lean ====
section
/-! DEFINITION. CFS by itself (11_configuration_store.md): the stored records, the load, protection and the operations. -/

namespace Sys2Proof.Machine

/-! ### Checks between entries of one table -/

/-- Another valid NODE entry holds the serial (R110). -/
def nodeDuplicate (t : Vector NodeEntry 16) (i : Fin 16) (e : NodeEntry) : Bool :=
  e.valid && (List.finRange 16).any fun j => j ≠ i && t[j].valid && t[j].serial = e.serial

/-- Another valid SEATMAP entry holds the key or the position (R18). -/
def seatDuplicate (t : Vector SeatMapEntry 24) (i : Fin 24) (e : SeatMapEntry) : Bool :=
  e.valid && (List.finRange 24).any fun j =>
    j ≠ i && t[j].valid && ((t[j].slot = e.slot && t[j].seat = e.seat) || t[j].pos = e.pos)

/-- With `e` as entry `i`, the chain of `i` or of a valid entry whose chain passes through `i` holds more than 4
rules (R49). -/
def chainTooLong (t : Rules) (i : RuleIx) (e : RuleEntry) : Bool :=
  let t' := put t i e
  e.valid && (List.finRange 24).any fun j =>
    t'[j].valid && i ∈ chainOf t' 24 j && 4 < (chainOf t' 24 j).length

/-! ### The load (R206) -/

/-- The load of a table whose entries are taken in rising index order: an erased record, and one that conflicts with
those kept before it, loads as an invalid entry. -/
def loadKept {α : Type} {n : Nat} (invalid : α) (conflict : Vector α n → Fin n → α → Bool)
    (stored : Vector (Option α) n) : Vector α n :=
  (List.finRange n).foldl
    (fun kept i =>
      match stored[i] with
      | some e => if conflict kept i e then kept else put kept i e
      | none => kept)
    (Vector.replicate n invalid)

/-- The load of a table without laws between its entries: an erased record loads `d`. -/
def loadPlain {α : Type} {n : Nat} (d : α) (stored : Vector (Option α) n) : Vector α n :=
  Vector.ofFn fun i => stored[i].getD d

def Store.loadNode (s : Store) : Vector NodeEntry 16 := loadKept NodeEntry.invalid nodeDuplicate s.node

def Store.loadSeatmap (s : Store) : Vector SeatMapEntry 24 := loadKept SeatMapEntry.invalid seatDuplicate s.seatmap

def Store.loadRule (s : Store) : Rules := loadKept RuleEntry.invalid chainTooLong s.rule

/-- Every record of a table is erased. -/
def allErased {α : Type} {n : Nat} (v : Vector (Option α) n) : Bool :=
  (List.finRange n).all fun i => v[i].isNone

/-- Every record of a region is erased (R205, R206). -/
def Store.regionErased (s : Store) : Fin 4 → Bool
  | 0 => allErased s.node && allErased s.seatmap
  | 1 => allErased s.poscfg && s.localcfg.isNone
  | 2 => allErased s.rule
  | 3 => allErased s.profile && allErased s.ringA && allErased s.ringB && allErased s.segcfg && s.timing.isNone &&
      s.panelcfg.isNone

/-- The region erase summary: bit r set when every record of region r is erased (R206). -/
def Store.summary (s : Store) : BitVec 4 :=
  BitVec.ofNat 4 ((s.regionErased 0).toNat + 2 * (s.regionErased 1).toNat + 4 * (s.regionErased 2).toNat +
    8 * (s.regionErased 3).toNat)

/-- The stored PROTECT word, no region protected when it is erased. R206 says so for the load at hard reset; R211, which
has PROTLOAD copy the stored word, does not say what an erased one gives then, and the model takes the same (DEDUCED,
log entry 36). -/
def Store.word (s : Store) : BitVec 4 := s.protect.getD 0

/-- The effective protection that a word gives: the lock forces region 1 (R206, R211). -/
def effectiveOf (lock : Bool) (word : BitVec 4) : BitVec 4 := if lock then word ||| 0b0010 else word

/-! ### Records -/

/-- The table of a staged entry. -/
def Staged.table : Staged → TableId
  | .node _ _ => .node
  | .seatmap _ _ => .seatmap
  | .poscfg _ _ => .poscfg
  | .rule _ _ => .rule
  | .profile _ _ => .profile
  | .ringA _ _ => .ringA
  | .ringB _ _ => .ringB
  | .segcfg _ _ => .segcfg
  | .localcfg _ => .localcfg
  | .timing _ => .timing
  | .panelcfg _ => .panelcfg
  | .protect _ => .protect

/-- The index of a staged entry. -/
def Staged.index : Staged → Nat
  | .node i _ => i.val
  | .seatmap i _ => i.val
  | .poscfg i _ => i.val
  | .rule i _ => i.val
  | .profile i _ => i.val
  | .ringA i _ => i.val
  | .ringB i _ => i.val
  | .segcfg i _ => i.val
  | .localcfg _ => 0
  | .timing _ => 0
  | .panelcfg _ => 0
  | .protect _ => 0

/-- The record that a staged entry names is programmed with it (`keep`), or left erased (R208, R212). -/
def Store.record (s : Store) (keep : Bool) : Staged → Store
  | .node i e => { s with node := put s.node i (if keep then some e else none) }
  | .seatmap i e => { s with seatmap := put s.seatmap i (if keep then some e else none) }
  | .poscfg i e => { s with poscfg := put s.poscfg i (if keep then some e else none) }
  | .rule i e => { s with rule := put s.rule i (if keep then some e else none) }
  | .profile i e => { s with profile := put s.profile i (if keep then some e else none) }
  | .ringA i e => { s with ringA := put s.ringA i (if keep then some e else none) }
  | .ringB i e => { s with ringB := put s.ringB i (if keep then some e else none) }
  | .segcfg i e => { s with segcfg := put s.segcfg i (if keep then some e else none) }
  | .localcfg e => { s with localcfg := if keep then some e else none }
  | .timing e => { s with timing := if keep then some e else none }
  | .panelcfg e => { s with panelcfg := if keep then some e else none }
  | .protect w => { s with protect := if keep then some w else none }

/-- Every record of a region erased (R210). -/
def Store.eraseRegion (s : Store) : Fin 4 → Store
  | 0 => { s with node := Store.erased.node, seatmap := Store.erased.seatmap }
  | 1 => { s with poscfg := Store.erased.poscfg, localcfg := none }
  | 2 => { s with rule := Store.erased.rule }
  | 3 => { s with profile := Store.erased.profile, ringA := Store.erased.ringA, ringB := Store.erased.ringB,
                  segcfg := Store.erased.segcfg, timing := none, panelcfg := none }

/-! ### Operations -/

/-- The target record of the staged entry, if any, left erased (R208, R209, R212). -/
def Cfs.eraseTarget (c : Cfs) : Store :=
  match c.staging with
  | some st => c.store.record false st
  | none => c.store

/-- What a hard reset leaves of an operation in flight or suspended (R212): the target record or the region erased, an
interrupted lock clear. -/
def Cfs.interrupted (c : Cfs) : Store :=
  match c.op with
  | .idle => c.store
  | .running .commit => c.eraseTarget
  | .suspended .commit => c.eraseTarget
  | .running (.erase r) => c.store.eraseRegion r
  | .suspended (.erase r) => c.store.eraseRegion r
  | .running .lock => c.store
  | .suspended .lock => c.store

/-- CFS after the load of a store (R205, R206). -/
def Cfs.boot (st : Store) : Cfs :=
  { store := st, live := st.word, effective := effectiveOf st.lock st.word, staging := none, op := .idle,
    summary := st.summary, programFail := false }

/-- Entry to SLEEP suspends an operation in flight (R212). -/
def Cfs.suspend (c : Cfs) : Cfs :=
  match c.op with
  | .running op => { c with op := .suspended op }
  | _ => c

/-- Entry to RUN after SLEEP restarts a suspended operation from its beginning (R212). -/
def Cfs.restart (c : Cfs) : Cfs :=
  match c.op with
  | .suspended op => { c with op := .running op }
  | _ => c

/-- A table's region is effectively protected; PROTECT belongs to no region (R193, R211). -/
def Cfs.protects (c : Cfs) (t : TableId) : Bool :=
  match t.region with
  | some r => c.effective.getLsbD r.val
  | none => false

end Sys2Proof.Machine
end

