-- ==== Sys2Proof/Machine/Operands.lean ====
section
/-! DEFINITION. The operand forms: the entry a TBLWR carries, with each field's range as its owner takes it, and the
segment frames a controller receives (section 10.10). -/

namespace Sys2Proof.Machine

/-- Byte `i` of a payload as a number. -/
def u8 (bs : List Byte) (i : Nat) : Nat := (bs.getD i 0).toNat

/-- The two bytes at `i`, high byte first. -/
def u16 (bs : List Byte) (i : Nat) : Nat := u8 bs i * 256 + u8 bs (i + 1)

/-- The flag at `i`: any byte other than 0 is taken as 1 (R194). -/
def flagAt (bs : List Byte) (i : Nat) : Bool := byteFlag (bs.getD i 0)

/-! ### Table entries -/

/-- NODE entry of 7 bytes (R110, steps 1 and 2): valid, serial, seat count, mirror. -/
def parseNode (bs : List Byte) : Except Status NodeEntry :=
  if !flagAt bs 0 then .ok NodeEntry.invalid
  else
    let serial := beNat (bs.drop 1 |>.take 4)
    if serial = 0 then .error .range
    else .ok { valid := true, serial := BitVec.ofNat 32 serial, seatCount := clamp 1 3 (u8 bs 5),
               mirror := flagAt bs 6 }

/-- SEATMAP entry of 4 bytes (R18, step 1): valid, slot, seat index, position. -/
def parseSeatMap (bs : List Byte) : Except Status SeatMapEntry :=
  if !flagAt bs 0 then .ok SeatMapEntry.invalid
  else if 15 < u8 bs 1 ∨ 2 < u8 bs 2 ∨ u8 bs 3 < 2 ∨ 15 < u8 bs 3 then .error .range
  else .ok { valid := true, slot := Fin.ofNat 16 (u8 bs 1), seat := Fin.ofNat 3 (u8 bs 2),
             pos := Fin.ofNat 16 (u8 bs 3) }

/-- The threshold order of R21. -/
def PosCfg.ordered (c : PosCfg) : Bool :=
  c.tObj < c.tSmall && c.tSmall < c.tAdult && c.hyst < c.tObj

/-- A threshold lies in 1..16240 (R20). -/
def thresholdInRange (n : Nat) : Bool := 1 ≤ n && n ≤ 16240

/-- POSCFG entry of 24 bytes (R20, R21): offsets, gain, T_cell, T_obj, T_small, T_adult, H, k, up-confirm,
down-confirm, profile, watch-eligible. -/
def parsePosCfg (bs : List Byte) : Except Status PosCfg :=
  if 1023 < u16 bs 9 ∨ !thresholdInRange (u16 bs 11) ∨ !thresholdInRange (u16 bs 13) ∨
      !thresholdInRange (u16 bs 15) ∨ 1023 < u16 bs 17 ∨ 3 < u8 bs 19 ∨ 3 < u8 bs 22 then .error .range
  else
    let c : PosCfg :=
      { offsets := Vector.ofFn fun i => Fin.ofNat 256 (u8 bs i.val), gain := clamp 32 127 (u8 bs 8),
        tCell := u16 bs 9, tObj := u16 bs 11, tSmall := u16 bs 13, tAdult := u16 bs 15, hyst := u16 bs 17,
        shift := Fin.ofNat 4 (u8 bs 19), upConfirm := clamp 1 15 (u8 bs 20),
        downConfirm := clamp 1 15 (u8 bs 21), profile := Fin.ofNat 4 (u8 bs 22),
        watchEligible := flagAt bs 23 }
    if c.ordered then .ok c else .error .order

/-- The anchor condition a code names, if any (R45). -/
def anchorCondOf : Nat → Option AnchorCond
  | 0 => some .any
  | 1 => some .engaged
  | 2 => some .free
  | _ => none

/-- The class a code names, if any (R2). -/
def clsOf : Nat → Option Cls
  | 0 => some .vacant
  | 1 => some .object
  | 2 => some .smallOccupant
  | 3 => some .adult
  | 4 => some .childSeatEmpty
  | 5 => some .childSeatOccupied
  | 6 => some .undetermined
  | _ => none

/-- The outcome a code names, if any: 0 is ARM, then the classes (R45). -/
def outcomeOf : Nat → Option (Option Cls)
  | 0 => some none
  | n + 1 => (clsOf n).map some

/-- RULE entry of 13 bytes, stages 1 and 2 of R48, for the written index `i`; the predecessor's own test of R49, an
index equal to or above `i`, is refused CHAIN after them. Bits of a set that stand for no listed value are taken as 0
(R194). -/
def parseRule (i : RuleIx) (bs : List Byte) : Except Status RuleEntry :=
  if !flagAt bs 0 then .ok RuleEntry.invalid
  else
    let bands : BitVec 4 := BitVec.ofNat 4 (u8 bs 3)
    match anchorCondOf (u8 bs 7), anchorCondOf (u8 bs 8), outcomeOf (u8 bs 11) with
    | some ca, some cb, some out =>
      if bands = 0 ∨ 8 < u8 bs 4 ∨ 8 < u8 bs 5 then .error .range
      else if u8 bs 5 < u8 bs 4 then .error .order
      else if u8 bs 10 ≠ 0xFF ∧ i.val ≤ u8 bs 10 then .error .chain
      else .ok
        { valid := true, positions := BitVec.ofNat 16 (u16 bs 1), bands := bands, fpMin := u8 bs 4,
          fpMax := u8 bs 5, buckles := BitVec.ofNat 3 (u8 bs 6), condA := ca, condB := cb,
          tags := BitVec.ofNat 4 (u8 bs 9),
          pred := if u8 bs 10 = 0xFF then none else some (Fin.ofNat 24 (u8 bs 10)),
          outcome := out, window := clamp 1 15 (u8 bs 12) }
    | _, _, _ => .error .range

/-- PROFILE entry of 8 bytes (R133). -/
def parseProfile (bs : List Byte) : Except Status ProfileEntry :=
  if u8 bs 3 = 0 ∨ 15 < u8 bs 5 ∨ 3 < u8 bs 6 then .error .range
  else .ok { required := BitVec.ofNat 7 (u8 bs 0), grace := u8 bs 1, visual := u8 bs 2, burstOn := u8 bs 3,
             burstGap := u8 bs 4, bursts := u8 bs 5, tone := Fin.ofNat 4 (u8 bs 6), speedGated := flagAt bs 7 }

/-- RING_A or RING_B entry of 4 bytes (R86): a next above 11 is stored as END. -/
def parseRing (bs : List Byte) : Except Status RingEntry :=
  if !flagAt bs 0 then .ok RingEntry.invalid
  else if 15 < u8 bs 2 then .error .range
  else .ok { valid := true, enabled := flagAt bs 1, slot := Fin.ofNat 16 (u8 bs 2),
             next := if 11 < u8 bs 3 then none else some (Fin.ofNat 12 (u8 bs 3)) }

/-- SEGCFG entry of 6 bytes, every field clamped (R84). -/
def parseSegCfg (bs : List Byte) : Except Status SegCfg :=
  .ok { enable := flagAt bs 0, head := Fin.ofNat 12 (clamp 0 11 (u8 bs 1)),
        pollInterval := clamp 2 50 (u8 bs 2), replyWindow := clamp 1 10 (u8 bs 3),
        missLimit := clamp 1 15 (u8 bs 4), detachCount := clamp 1 255 (u8 bs 5) }

/-- LOCALCFG entry of 6 bytes, clamped and then ordered (R76). -/
def parseLocalCfg (bs : List Byte) : Except Status LocalCfg :=
  let c : LocalCfg :=
    { fitted0 := flagAt bs 0, fitted1 := flagAt bs 1, threshold := clamp 1 1023 (u16 bs 2),
      hyst := clamp 0 63 (u8 bs 4), interval := clamp 10 100 (u8 bs 5) }
  if 1023 < c.threshold + c.hyst then .error .order else .ok c

/-- TIMING entry of 10 bytes, every field clamped (R186). -/
def parseTiming (bs : List Byte) : Except Status Timing :=
  .ok { tick := Fin.ofNat 4 (clamp 0 3 (u8 bs 0)), runDown := clamp 1 60 (u8 bs 1),
        dwell := clamp 10 600 (u16 bs 2), alertRepeat := clamp 5 60 (u8 bs 4),
        watchInterval := clamp 1 10 (u8 bs 5), watchMax := clamp 1 120 (u8 bs 6),
        wakeTrunk := flagAt bs 7, wakeDoor := flagAt bs 8, wakeBuckle := flagAt bs 9 }

/-- PANELCFG entry of 5 bytes (R162). -/
def parsePanelCfg (bs : List Byte) : Except Status PanelCfg :=
  if 1 < u8 bs 1 then .error .range
  else .ok { enable := flagAt bs 0, layout := if u8 bs 1 = 0 then .fourByEight else .eightByFour,
             fitted := BitVec.ofNat 16 (u16 bs 2), duty := clamp 1 8 (u8 bs 4) }

/-- PROTECT word of 1 byte: bits above bit 3 are stored as 0 (R205). -/
def parseProtect (bs : List Byte) : BitVec 4 := BitVec.ofNat 4 (u8 bs 0)

/-! ### Segment frames -/

/-- The buckle code of a seat block: the unassigned fourth value is taken as FAULT (R36). -/
def buckleOfCode : Nat → Buckle
  | 0 => .latched
  | 1 => .opened
  | _ => .fault

/-- The tag code of a seat block (section 10.10). -/
def tagOfCode : Nat → RestraintTag
  | 0 => .none
  | 1 => .infantRear
  | 2 => .childFwd
  | _ => .booster

/-- One seat block of 11 bytes: eight cells of 10 bits, cell 0 first, most significant bit first, then the byte of
buckle, anchors and tag (section 10.10). -/
def parseBlock (supplyLow : Bool) (bs : List Byte) : Block :=
  let cells := beNat (bs.take 10)
  let last := u8 bs 10
  { cells := Vector.ofFn fun i => Fin.ofNat 1024 (cells / 2 ^ (70 - 10 * i.val)),
    buckle := buckleOfCode (last / 64), anchorA := last / 32 % 2 = 1, anchorB := last / 16 % 2 = 1,
    tag := tagOfCode (last / 4 % 4), supplyLow := supplyLow }

/-- The `n` seat blocks at the front of a list of bytes. -/
def parseBlocks (supplyLow : Bool) : Nat → List Byte → List Block
  | 0, _ => []
  | n + 1, bs => parseBlock supplyLow (bs.take 11) :: parseBlocks supplyLow n (bs.drop 11)

/-- Unit flag bit 0: the DETACH lever (section 10.10). -/
def Report.lever (r : Report) : Bool := r.flags.getLsbD 0

/-- Unit flag bit 1: supply-low (section 10.10). -/
def supplyLowBit (flags : Byte) : Bool := flags.getLsbD 1

/-- The REPORT that a received frame is, when it passes every test of R92 but that of its slot code: a good check, a
REPORT, 1..3 seat blocks and an answer of 0..8 bytes, a length that agrees, a serial other than 0. -/
def parseReport (bytes : List Byte) : Option Report :=
  let body := bytes.take (bytes.length - 2)
  let check := bytes.drop (bytes.length - 2)
  match body with
  | addr :: kind :: len :: payload =>
    let b := u8 payload 6
    let a := u8 payload 7
    let serial := beNat (payload.take 4)
    if check = checkBytes (byteSum body) ∧ payload.length = len.toNat ∧ 128 ≤ addr.toNat ∧ kind = 0x02 ∧
        1 ≤ b ∧ b ≤ 3 ∧ a ≤ 8 ∧ len.toNat = 8 + 11 * b + a ∧ serial ≠ 0 then
      let flags := payload.getD 5 0
      let raw := (payload.drop 8).take (11 * b)
      some { slot := Fin.ofNat 16 addr.toNat, serial := BitVec.ofNat 32 serial, seq := Fin.ofNat 16 (u8 payload 4),
             flags := flags, blocks := parseBlocks (supplyLowBit flags) b raw, raw := raw,
             answer := payload.drop (8 + 11 * b) }
    else none
  | _ => none

/-- The bytes of a POLL: address with bit 7 clear, kind 0x01, length, request body, check (section 10.10). -/
def pollBytes (slot : Slot) (body : List Byte) : List Byte :=
  let front := byte slot.val :: 0x01 :: byte body.length :: body
  front ++ checkBytes (byteSum front)

end Sys2Proof.Machine
end

