-- ==== Sys2Proof/Machine/Segments.lean ====
section
/-! DEFINITION. A segment controller by itself (05_seat_segments_and_polling.md): the walk, the poll, the pass-through
records, and what the power state does to it. -/

namespace Sys2Proof.Machine

/-! ### The walk (R87, R89) -/

/-- A ring entry is pollable in RUN (R89). -/
def RingEntry.pollable (e : RingEntry) : Bool := e.valid && e.enabled

/-- The entry that `e`'s next names; none when it is END or names an invalid entry (R87). -/
def follow (ring : Vector RingEntry 12) (e : RingIx) : Option RingIx :=
  match ring[e].next with
  | none => none
  | some n => if ring[n].valid then some n else none

/-- The entries reached from `e` by following next, after those already reached (R87). -/
def walkFrom (ring : Vector RingEntry 12) : Nat → RingIx → List RingIx → List RingIx
  | 0, _, seen => seen
  | k + 1, e, seen =>
    if e ∈ seen then seen
    else
      match follow ring e with
      | none => seen ++ [e]
      | some n => walkFrom ring k n (seen ++ [e])

/-- The walk set (R87). -/
def Segment.walkSet (g : Segment) : List RingIx := walkFrom g.ring 12 g.cfg.head []

/-- The walk slots (R87). -/
def Segment.walkSlots (g : Segment) : List Slot :=
  (g.walkSet.filter fun e => g.ring[e].pollable).map fun e => g.ring[e].slot

/-- The entry the pointer advances to: the one next names, or head (R89). -/
def Segment.advance (g : Segment) (e : RingIx) : RingIx := (follow g.ring e).getD g.cfg.head

/-- The walk of one poll start in RUN over at most `n` entries: the pollable entry found, and the pointer after
(R89, R90). -/
def Segment.findPoll (g : Segment) : Nat → RingIx → Option RingIx × RingIx
  | 0, e => (none, e)
  | n + 1, e => if g.ring[e].pollable then (some e, g.advance e) else g.findPoll n (g.advance e)

/-- Where the walk of a poll start begins: at head when a SEGCFG write moved it, at head when the pointer lies outside
the walk set, else at the pointer (R85, R89). -/
def Segment.walkStart (g : Segment) : RingIx :=
  if g.headMoved then g.cfg.head else if g.pointer ∈ g.walkSet then g.pointer else g.cfg.head

/-- The visits of a watch pass from `e` on, until an entry that the test `polls` takes or the pass's end: the entry to
poll, the entry to visit after it, the entries visited (R104). An entry that the test does not take is visited and the
pass goes on by its next. The entry to visit after a poll is fixed at the poll's start, by the next that the polled entry
then holds: the spec does not say whether a ring write to that entry, taken before the next poll start, moves the pass
(DESIGN CHOICE, log entry 32). -/
def passVisit (ring : Vector RingEntry 12) (polls : RingIx → Bool) :
    Nat → Option RingIx → List RingIx → Option RingIx × Option RingIx × List RingIx
  | 0, _, seen => (none, none, seen)
  | _ + 1, none, seen => (none, none, seen)
  | k + 1, some e, seen =>
    if e ∈ seen then (none, none, seen)
    else
      let seen' := seen ++ [e]
      if polls e then (some e, (follow ring e).filter fun n => n ∉ seen', seen')
      else passVisit ring polls k (follow ring e) seen'

/-- A watch pass polls the entry when it visits it: the entry is valid and enabled and its slot sources a watched
position (R104), and it lies in the walk set as the poll start finds it (R87). A write during the pass can leave an entry
the pass still visits outside that set: it is visited and not polled, and the pass goes on by its next (DESIGN CHOICE,
log entry 32). -/
def Segment.pollsInPass (g : Segment) (watched : Slot → Bool) (e : RingIx) : Bool :=
  g.ring[e].pollable && watched g.ring[e].slot && e ∈ g.walkSet

/-! ### Pass-through records (R99 to R103) -/

/-- The record is ANSWERED. -/
def PassRecord.isAnswered (r : PassRecord) : Bool :=
  match r.state with
  | .answered _ _ _ => true
  | _ => false

/-- The records a test picks are answered in list order, the first at rank `n` (R101, R102, R103). -/
def answerAll (pick : PassRecord → Bool) (st : AnswerStatus) (body : List Byte) :
    Nat → List PassRecord → List PassRecord
  | _, [] => []
  | n, r :: rs =>
    if pick r then { r with state := .answered st body n } :: answerAll pick st body (n + 1) rs
    else r :: answerAll pick st body n rs

/-- The records a test picks are answered, after those answered before (R103). -/
def Segment.answer (g : Segment) (pick : PassRecord → Bool) (st : AnswerStatus) (body : List Byte) : Segment :=
  { g with records := answerAll pick st body (g.records.countP PassRecord.isAnswered) g.records }

/-- The SENT record is answered as its poll ends (R101). -/
def Segment.answerSent (g : Segment) (st : AnswerStatus) (body : List Byte) : Segment :=
  g.answer (fun r => r.state = .sent) st body

/-- Every QUEUED record is answered (R96, R98). -/
def Segment.answerQueued (g : Segment) (st : AnswerStatus) : Segment :=
  g.answer (fun r => r.state = .queued) st []

/-- The QUEUED records of a slot are answered NOT_PRESENT (R102). -/
def Segment.dropSlot (g : Segment) (slot : Slot) : Segment :=
  g.answer (fun r => r.state = .queued && r.slot = slot) .notPresent []

/-- The QUEUED records whose slot is not among the walk slots are answered NOT_PRESENT (R102). -/
def Segment.checkWalk (g : Segment) : Segment :=
  g.answer (fun r => r.state = .queued && r.slot ∉ g.walkSlots) .notPresent []

/-- The oldest QUEUED record of a slot becomes SENT (R100). -/
def attach (slot : Slot) : List PassRecord → List PassRecord
  | [] => []
  | r :: rs =>
    if r.state = .queued ∧ r.slot = slot then { r with state := .sent } :: rs else r :: attach slot rs

/-- The record that a poll of a slot attaches: the oldest QUEUED one (R100). -/
def Segment.toAttach (g : Segment) (slot : Slot) : Option PassRecord :=
  g.records.find? fun r => r.state = .queued && r.slot = slot

/-- The earliest ANSWERED record, the one the segment offers TKP (R103). -/
def Segment.offer (g : Segment) : Option PassRecord :=
  g.records.find? fun r =>
    match r.state with
    | .answered _ _ n => n = 0
    | _ => false

/-- The place of an ANSWERED record after the earliest has gone. -/
def PassRecord.moveUp (r : PassRecord) : PassRecord :=
  match r.state with
  | .answered st body n => { r with state := .answered st body (n - 1) }
  | _ => r

/-- The record whose NODEANS was sent is removed (R103). -/
def Segment.removeOffer (g : Segment) : Segment :=
  { g with records := (g.records.eraseP fun r =>
      match r.state with
      | .answered _ _ n => n = 0
      | _ => false).map PassRecord.moveUp }

/-! ### The poll (R91 to R96) -/

/-- The poll of ring entry `e` starts: poll record, attached record, POLL on the line, spacing timer. The controller
does not receive while it sends, so a frame in reception is given up (R83, R88, R91, R100; log entry 15). -/
def Segment.startPoll (g : Segment) (e : RingIx) : Segment :=
  let slot := g.ring[e].slot
  let rec? := g.toAttach slot
  { g with
    poll := some { slot := slot, entry := e, tag := rec?.map (·.tag), window := g.cfg.replyWindow }
    sending := some (pollBytes slot ((rec?.map (·.body)).getD []))
    spacing := some g.cfg.pollInterval
    window := none
    records := attach slot g.records
    reception := if g.reception = .receiving then .none else g.reception }

/-- The pass of a segment whose poll ends, gone when its walk has ended (R104). -/
def endOfPass (p : Option WatchPass) : Option WatchPass := p.filter fun w => w.next.isSome

/-- The poll ends: poll record absent, window timer stopped (R92, R93, R96, R104). -/
def Segment.endPoll (g : Segment) : Segment :=
  { g with poll := none, sending := none, window := none, pass := endOfPass g.pass }

/-- A poll start in RUN (R89, R90). -/
def Segment.pollInRun (g : Segment) : Segment :=
  let w := g.findPoll 12 g.walkStart
  let g' := { g with pointer := w.2, headMoved := false }
  match w.1 with
  | some e => g'.startPoll e
  | none => { g' with state := .idle }

/-- A poll start of a watch pass (R87, R104): the next eligible entry is polled, or the pass ends, RUNNING if it polled
and IDLE if not. The pointer follows the pass (log entry 16), and the entry after the polled one is fixed here (log entry
32). -/
def Segment.pollInPass (g : Segment) (watched : Slot → Bool) (w : WatchPass) : Segment :=
  let v := passVisit g.ring (g.pollsInPass watched) 12 w.next w.visited
  let g' := { g with pointer := v.2.1.getD g.cfg.head }
  match v.1 with
  | some e => { g'.startPoll e with pass := some { next := v.2.1, visited := v.2.2, polled := true } }
  | none => { g' with pass := none, state := if w.polled then .running else .idle }

/-- A watch pass starts at a watch-interval event that finds the segment RUNNING or IDLE (R104). -/
def Segment.startPass (g : Segment) : Segment :=
  if g.state = .running ∨ g.state = .idle then
    { g with state := .running, pointer := g.cfg.head, headMoved := false,
             pass := some { next := some g.cfg.head, visited := [], polled := false } }
  else g

/-- IDLE ends at an accepted write to the segment's ring or SEGCFG entry (R90). -/
def Segment.endIdle (g : Segment) : Segment :=
  if g.state = .idle then { g with state := .running, pointer := g.cfg.head, headMoved := false } else g

/-! ### Power states and resets (R104 to R106) -/

/-- Entry to RUN at the end of STARTING, at wake and at soft reset: an enabled segment RUNNING, pointer at head,
spacing expired (R81, R105, R106). R105 gives the pointer at wake of an enabled segment only; of one whose enable is
clear it says that it stays STOPPED, and the model moves its pointer to head too, as R81 and R106 do at the resets
(DESIGN CHOICE, log entry 35). -/
def Segment.start (g : Segment) : Segment :=
  { g with state := if g.cfg.enable then .running else .stopped, pointer := g.cfg.head, headMoved := false,
           spacing := none }

/-- Work in flight abandoned, every record removed, timers stopped, STOPPED (R105). -/
def Segment.abandon (g : Segment) : Segment :=
  { g with state := .stopped, poll := none, sending := none, spacing := none, window := none, probe := false,
           records := [], reception := .none, pass := none }

/-- Entry to RUN from PARK_WATCH: the pass stops, the pointer goes to head, IDLE becomes RUNNING (R104). -/
def Segment.resumeRun (g : Segment) : Segment :=
  { g with pass := none, pointer := g.cfg.head, headMoved := false,
           state := if g.state = .idle then .running else g.state }

/-- The controller after hard reset, over a loaded ring and SEGCFG entry (R81). -/
def Segment.boot (ring : Vector RingEntry 12) (cfg : SegCfg) : Segment :=
  { Segment.reset with ring := ring, cfg := cfg, pointer := cfg.head }

end Sys2Proof.Machine
end

