-- ==== Sys2Proof/Machine/Units.lean ====
section
/-! DEFINITION. UTR (06_seat_units.md): what a good REPORT, a miss and the loss of a segment do to a slot and its
neighbours. -/

namespace Sys2Proof.Machine

/-- An event kind added, and the slot's notice owed set (R113). -/
def SlotRec.addEvent (r : SlotRec) (e : SlotEvent) : SlotRec :=
  { r with events := r.events ||| BitVec.ofNat 8 (2 ^ e.bit), owed := true }

/-- An event kind added at slot `i` (R113). -/
def State.addEvent (s : State) (i : Slot) (e : SlotEvent) : State := s.setSlot i (s.slots[i].addEvent e)

/-- The slot goes to EMPTY: serial, segment and seq absent, counts 0, events kept (R115, R125, R126). -/
def SlotRec.toEmpty (r : SlotRec) : SlotRec :=
  { r with state := .empty, serial := none, lastSeg := none, lastSeq := none, miss := 0, lost := 0 }

/-- The QUEUED records of a slot in the segment that last heard it are answered NOT_PRESENT (R102). -/
def State.dropRecords (s : State) (i : Slot) : State :=
  match s.slots[i].lastSeg with
  | some g => s.modSeg g fun x => x.dropSlot i
  | none => s

/-- The NODE index of a serial among the valid entries (R109). -/
def State.findNode (s : State) (serial : Serial) : Option (Fin 16) :=
  (List.finRange 16).find? fun i => s.node[i].valid && s.node[i].serial = serial

/-- The SEATMAP index of a key among the valid entries (R17). -/
def State.findSeat (s : State) (slot : Slot) (ix : SeatIx) : Option (Fin 24) :=
  (List.finRange 24).find? fun i => s.seatmap[i].valid && s.seatmap[i].slot = slot && s.seatmap[i].seat = ix

/-- One seat block dispatched by its key, or dropped with UNMAPPED_SEAT (R120). -/
def State.dispatchBlock (s : State) (slot : Slot) (ix : SeatIx) (b : Block) : State :=
  match s.findSeat slot ix with
  | some i => s.takeBlock s.seatmap[i].pos (.seat slot ix) b
  | none => s.addEvent slot .unmappedSeat

/-- The blocks from seat index `k` on whose index is below the seat count (R114, R120). -/
def State.dispatchFrom (slot : Slot) (seatCount : Nat) : Nat → List Block → State → State
  | _, [], s => s
  | k, b :: bs, s =>
    State.dispatchFrom slot seatCount (k + 1) bs
      (if k < seatCount then s.dispatchBlock slot (Fin.ofNat 3 k) b else s)

/-- A mirror copy offered to TKP: appended, or dropped with MIRROR_DROP when 8 are held (R122, R203). -/
def State.offerMirror (s : State) (c : MirrorCopy) : State :=
  if s.tkp.mirror.length < Config.mirrorPlaces then s.modTkp fun t => { t with mirror := t.mirror ++ [c] }
  else s.modFlags fun f => { f with mirrorDrop := true }

/-- The mirror copy of a REPORT heard on a segment (R122). -/
def Report.copy (r : Report) (g : Seg) : MirrorCopy :=
  { slot := r.slot, seg := g, serial := r.serial, seq := r.seq, flags := r.flags, count := r.blocks.length,
    raw := r.raw }

/-- Acceptance, mirror copy and dispatch of a fresh REPORT by its NODE entry (R119 to R122). -/
def State.accept (s : State) (g : Seg) (r : Report) (n : NodeEntry) : State :=
  let s1 := s.setSlot r.slot { s.slots[r.slot] with miss := 0, lastSeq := some r.seq }
  let s2 := if n.mirror then s1.offerMirror (r.copy g) else s1
  let s3 := State.dispatchFrom r.slot n.seatCount 0 r.blocks s2
  if r.blocks.length ≠ n.seatCount then s3.addEvent r.slot .countMismatch else s3

/-- The DETACH lever at a slot that is not EMPTY (R115). -/
def State.detach (s : State) (i : Slot) : State :=
  let s1 := (s.dropRecords i).clearFedBy i
  s1.setSlot i (s1.slots[i].toEmpty.addEvent .detached)

/-- The old unit's record ends as a different serial reaches a slot that is not EMPTY (R116, step 1). -/
def State.swapOut (s : State) (i : Slot) : State :=
  let s1 := (s.dropRecords i).clearFedBy i
  s1.setSlot i ({ s1.slots[i] with lastSeq := none, miss := 0, lost := 0 }.addEvent .swapped)

/-- A unit admitted to ACTIVE with its serial and segment (R116, R117). -/
def State.admitUnit (s : State) (g : Seg) (r : Report) : State :=
  s.setSlot r.slot ({ s.slots[r.slot] with
    state := .active, serial := some r.serial, lastSeg := some g, lastSeq := none }.addEvent .attached)

/-- A slot made REFUSED with its serial and segment (R116, R117). -/
def State.refuse (s : State) (g : Seg) (r : Report) : State :=
  s.setSlot r.slot ({ s.slots[r.slot] with
    state := .refused, serial := some r.serial, lastSeg := some g, lastSeq := none, miss := 0,
    lost := 0 }.addEvent .refused)

/-- The second stage of R116: an EMPTY slot, or another serial. -/
def State.newUnit (s : State) (g : Seg) (r : Report) : State :=
  let s1 := if s.slots[r.slot].state = .empty then s else s.swapOut r.slot
  match s1.findNode r.serial with
  | some n => (s1.admitUnit g r).accept g r s1.node[n]
  | none => s1.refuse g r

/-- The last segment becomes the one the REPORT was heard on; QUEUED records of the slot on the other one are answered
NOT_PRESENT (R117, R128). -/
def State.hearOn (s : State) (g : Seg) (i : Slot) : State :=
  let s1 := if s.slots[i].lastSeg = some g then s else s.dropRecords i
  s1.setSlot i { s1.slots[i] with lastSeg := some g }

/-- The third and fourth stages: a slot whose serial is the REPORT's (R117, R118). -/
def State.knownUnit (s : State) (g : Seg) (r : Report) : State :=
  let old := s.slots[r.slot]
  let s1 := s.hearOn g r.slot
  let rec1 := s1.slots[r.slot]
  match s1.findNode r.serial, old.state with
  | some n, .active =>
    if old.lastSeq = some r.seq then s1.setSlot r.slot { rec1 with miss := 0 } else s1.accept g r s1.node[n]
  | some n, .lost =>
    (s1.setSlot r.slot ({ rec1 with state := .active, lost := 0 }.addEvent .returned)).accept g r s1.node[n]
  | some n, _ => (s1.admitUnit g r).accept g r s1.node[n]
  | none, .refused => s1.setSlot r.slot { rec1 with miss := 0 }
  | none, _ => ((s1.dropRecords r.slot).clearFedBy r.slot).refuse g r

/-- UTR handles a good REPORT heard on a segment (R114 to R122). -/
def State.handleReport (s : State) (g : Seg) (r : Report) : State :=
  let slot := s.slots[r.slot]
  if r.lever then if slot.state = .empty then s else s.detach r.slot
  else if slot.state = .empty ∨ slot.serial ≠ some r.serial then s.newUnit g r
  else s.knownUnit g r

/-- An ACTIVE slot goes to LOST (R124, R127). -/
def State.loseSlot (s : State) (i : Slot) : State :=
  let s1 := (s.dropRecords i).loseFedBy i
  s1.setSlot i ({ s1.slots[i] with state := .lost, lost := 0 }.addEvent .lost)

/-- A slot dropped by the detach count (R125, R126). -/
def State.dropSlot (s : State) (i : Slot) : State :=
  let s1 := s.clearFedBy i
  s1.setSlot i (s1.slots[i].toEmpty.addEvent .detached)

/-- UTR takes a miss of a slot from a segment (R123 to R126). -/
def State.handleMiss (s : State) (g : Seg) (i : Slot) : State :=
  let r := s.slots[i]
  if r.lastSeg ≠ some g then s
  else
    match r.state with
    | .empty => s
    | .active =>
      let s1 := s.setSlot i { r with miss := r.miss + 1 }
      if (s.seg g).cfg.missLimit ≤ r.miss + 1 then s1.loseSlot i else s1
    | .refused =>
      let s1 := s.setSlot i { r with miss := r.miss + 1 }
      if (s.seg g).cfg.detachCount ≤ r.miss + 1 then s1.dropSlot i else s1
    | .lost =>
      let s1 := s.setSlot i { r with lost := r.lost + 1 }
      if (s.seg g).cfg.detachCount ≤ r.lost + 1 then s1.dropSlot i else s1

/-- Every ACTIVE slot last heard on a segment goes to LOST (R127). -/
def State.loseSegment (s : State) (g : Seg) : State :=
  (List.finRange 16).foldl
    (fun t i => if t.slots[i].state = .active ∧ t.slots[i].lastSeg = some g then t.loseSlot i else t) s

/-- A segment whose enable is clear and that has no poll outstanding goes STOPPED: QUEUED records answered
SEGMENT_OFF, probe timer stopped, its ACTIVE slots LOST (R98, R127). -/
def State.stopSegment (s : State) (g : Seg) : State :=
  (s.modSeg g fun x =>
    { x.answerQueued .segmentOff with state := .stopped, probe := false, pass := none, reception := .none }).loseSegment g

/-- After a poll has ended: a segment still disabled goes STOPPED (R98). -/
def State.afterPoll (s : State) (g : Seg) : State :=
  if (s.seg g).cfg.enable ∨ (s.seg g).state = .stopped then s else s.stopSegment g

end Sys2Proof.Machine
end

