-- ==== Sys2Proof/Machine/Power.lean ====
section
/-! DEFINITION. PMG (09_park_watch_and_power_states.md): the watch set, entry to SLEEP, PARK_WATCH and RUN, and what
every block does there (section 9.7). -/

namespace Sys2Proof.Machine

/-- The reminder tick period of a code, in ms (R186). -/
def tickPeriod : Fin 4 → Nat
  | 0 => 100
  | 1 => 250
  | 2 => 500
  | 3 => 1000

/-- PMG's watch ends: set empty, sub-state absent, dwell, alert and watch timers stopped and counts 0 (R182, R183). -/
def Pmg.endWatch (m : Pmg) : Pmg :=
  { m with sub := none, watchSet := [], dwell := 0, dwellTimer := false, alertRepeat := none, alertNumber := 0,
           alertOwed := false, elapsed := 0, elapsedTimer := false, interval := none }

/-- A NODEANS in flight no longer removes a record that entry to SLEEP removes (R105, R200; log entry 24). -/
def Sending.forgetRecord (x : Sending) : Sending :=
  match x.action with
  | .record _ => { x with action := .notice }
  | _ => x

/-- TKP at entry to SLEEP: the receiver stops, a send in progress goes on (R204). -/
def Tkp.enterSleep (t : Tkp) : Tkp := { t with rx := .off, tx := t.tx.map Sending.forgetRecord }

/-- Entry to SLEEP (R183 and section 9.7). -/
def State.enterSleep (s : State) : State :=
  { s with
    tkp := s.tkp.enterSleep
    sga := s.sga.abandon
    sgb := s.sgb.abandon
    lsu := s.lsu.abandon
    tick := none
    chd := Chd.reset
    pnd := s.pnd.enterSleep
    pmg := { s.pmg.endWatch with power := .sleep, runDown := none, sleepReq := false }
    cfs := s.cfs.suspend }

/-- The watch set has emptied in PARK_WATCH, which enters SLEEP (R176). -/
def State.sleepIfEmpty (s : State) : State :=
  if s.pmg.power = .parkWatch ∧ s.pmg.watchSet = [] then s.enterSleep else s

/-- The end of every step: CHD takes what is on its way to it, then an emptied watch set enters SLEEP (R156, R176;
log entries 13 and 21). -/
def State.settle (s : State) : State := (deliver s).sleepIfEmpty

/-- The run-down timer at an entry to RUN: started when the ignition is off (R172). -/
def Pmg.startRunDown (m : Pmg) : Pmg :=
  { m with runDown := if m.ignition then none else some m.timing.runDown }

/-- The blocks at entry to RUN at the end of STARTING, at wake and at soft reset: segments, local scan, tick timer,
panel (section 9.7). -/
def State.startBlocks (s : State) : State :=
  ({ s with
    sga := s.sga.start
    sgb := s.sgb.start
    tick := some (tickPeriod s.pmg.timing.tick)
    pnd := s.pnd.enterRun }).requestScan

/-- Out of SLEEP: the receiver waits for an idle line, a suspended store operation restarts (R204, R212). -/
def State.leaveSleep (s : State) : State :=
  { s with tkp := { s.tkp with rx := .waitIdle }, cfs := s.cfs.restart }

/-- A wake event of an enabled source (R184): its cause added by `add`, WAKENOTE owed, RUN entered. -/
def State.wake (s : State) (add : Causes → Causes) : State :=
  (s.leaveSleep.modPmg fun m =>
    { m with power := .run, causes := add m.causes, wakenoteOwed := true }.startRunDown).startBlocks

/-- The ignition comes on in PARK_WATCH (R182). -/
def State.returnToRun (s : State) : State :=
  ({ s with
    sga := s.sga.resumeRun
    sgb := s.sgb.resumeRun
    tick := some (tickPeriod s.pmg.timing.tick)
    chd := s.chd.withdrawAlert
    pnd := s.pnd.enterRun
    pmg := { s.pmg.endWatch with power := .run, runDown := none } }).requestScan

/-- A position joins the watch set at its forming (R174). -/
def joinsWatch (r : Position) (cfg : PosCfg) : Bool :=
  (r.presence = .live || r.presence = .held) && (r.cls = .childSeatOccupied || r.cls = .smallOccupant) &&
    cfg.watchEligible

/-- The watch set as the position records stand (R174). -/
def State.watchCandidates (s : State) : List Pos :=
  (List.finRange 16).filter fun p => joinsWatch s.positions[p] s.poscfg[p]

/-- Entry to PARK_WATCH with a watch set (R174, R177, R79, R135). -/
def State.enterWatch (s : State) (set : List Pos) : State :=
  { s with
    lsu := s.lsu.enterWatch
    tick := none
    pmg := { s.pmg.endWatch with
      power := .parkWatch
      sub := some .watching
      watchSet := set
      runDown := none
      sleepReq := false
      dwellTimer := s.pmg.locked && !s.pmg.doorOpen
      elapsedTimer := true
      interval := some s.pmg.timing.watchInterval } }

/-- PMG forms the watch set and leaves RUN (R174). -/
def State.formWatch (s : State) : State :=
  match s.watchCandidates with
  | [] => s.enterSleep
  | set => s.enterWatch set

/-- The dwell follows the door and lock conditions in PARK_WATCH (R177). -/
def Pmg.dwellReview (m : Pmg) : Pmg :=
  if m.power = .parkWatch then
    if m.locked && !m.doorOpen then { m with dwellTimer := true } else { m with dwell := 0, dwellTimer := false }
  else m

/-- A slot sources a watched position (R104). -/
def State.watchedSlot (s : State) (slot : Slot) : Bool :=
  s.pmg.watchSet.any fun p => s.positions[p].fedBy slot

end Sys2Proof.Machine
end

