-- ==== Sys2Proof/Machine/Wire.lean ====
section
/-! DEFINITION. The outbound payloads of section 10.10: table entries, the statuses that follow them, notices and
replies, as bytes. Packing details that the section leaves to its general rules are in log entry 12. -/

namespace Sys2Proof.Machine

/-! ### Entries -/

def NodeEntry.bytes (e : NodeEntry) : List Byte :=
  flagByte e.valid :: beBytes 4 e.serial.toNat ++ [byte e.seatCount, flagByte e.mirror]

def SeatMapEntry.bytes (e : SeatMapEntry) : List Byte :=
  [flagByte e.valid, byte e.slot.val, byte e.seat.val, byte e.pos.val]

def PosCfg.bytes (c : PosCfg) : List Byte :=
  (List.finRange 8).map (fun i => byte c.offsets[i].val) ++ [byte c.gain] ++ beBytes 2 c.tCell ++ beBytes 2 c.tObj ++
    beBytes 2 c.tSmall ++ beBytes 2 c.tAdult ++ beBytes 2 c.hyst ++
    [byte c.shift.val, byte c.upConfirm, byte c.downConfirm, byte c.profile.val, flagByte c.watchEligible]

def RuleEntry.bytes (e : RuleEntry) : List Byte :=
  flagByte e.valid :: beBytes 2 e.positions.toNat ++
    [byte e.bands.toNat, byte e.fpMin, byte e.fpMax, byte e.buckles.toNat, byte e.condA.code, byte e.condB.code,
     byte e.tags.toNat, optByte (e.pred.map fun j => byte j.val), byte (outcomeCode e.outcome), byte e.window]

def ProfileEntry.bytes (e : ProfileEntry) : List Byte :=
  [byte e.required.toNat, byte e.grace, byte e.visual, byte e.burstOn, byte e.burstGap, byte e.bursts,
   byte e.tone.val, flagByte e.speedGated]

def RingEntry.bytes (e : RingEntry) : List Byte :=
  [flagByte e.valid, flagByte e.enabled, byte e.slot.val, optByte (e.next.map fun j => byte j.val)]

def SegCfg.bytes (c : SegCfg) : List Byte :=
  [flagByte c.enable, byte c.head.val, byte c.pollInterval, byte c.replyWindow, byte c.missLimit,
   byte c.detachCount]

def LocalCfg.bytes (c : LocalCfg) : List Byte :=
  [flagByte c.fitted0, flagByte c.fitted1] ++ beBytes 2 c.threshold ++ [byte c.hyst, byte c.interval]

def Timing.bytes (c : Timing) : List Byte :=
  [byte c.tick.val, byte c.runDown] ++ beBytes 2 c.dwell ++
    [byte c.alertRepeat, byte c.watchInterval, byte c.watchMax, flagByte c.wakeTrunk, flagByte c.wakeDoor,
     flagByte c.wakeBuckle]

def PanelCfg.bytes (c : PanelCfg) : List Byte :=
  [flagByte c.enable, byte c.layout.code] ++ beBytes 2 c.fitted.toNat ++ [byte c.duty]

/-- The stored entry of a table in its wire form. -/
def State.entryBytes (s : State) (t : TableId) (i : Nat) : List Byte :=
  match t with
  | .node => s.node[Fin.ofNat 16 i].bytes
  | .seatmap => s.seatmap[Fin.ofNat 24 i].bytes
  | .poscfg => s.poscfg[Fin.ofNat 16 i].bytes
  | .rule => s.rules[Fin.ofNat 24 i].bytes
  | .profile => s.profiles[Fin.ofNat 4 i].bytes
  | .ringA => s.sga.ring[Fin.ofNat 12 i].bytes
  | .ringB => s.sgb.ring[Fin.ofNat 12 i].bytes
  | .segcfg => if i = 0 then s.sga.cfg.bytes else s.sgb.cfg.bytes
  | .localcfg => s.lsu.cfg.bytes
  | .timing => s.pmg.timing.bytes
  | .panelcfg => s.pnd.cfg.bytes
  | .protect => [byte s.cfs.live.toNat]

/-- The entry that STAGE copies (R207). -/
def State.entryToStage (s : State) (t : TableId) (i : Nat) : Staged :=
  match t with
  | .node => .node (Fin.ofNat 16 i) s.node[Fin.ofNat 16 i]
  | .seatmap => .seatmap (Fin.ofNat 24 i) s.seatmap[Fin.ofNat 24 i]
  | .poscfg => .poscfg (Fin.ofNat 16 i) s.poscfg[Fin.ofNat 16 i]
  | .rule => .rule (Fin.ofNat 24 i) s.rules[Fin.ofNat 24 i]
  | .profile => .profile (Fin.ofNat 4 i) s.profiles[Fin.ofNat 4 i]
  | .ringA => .ringA (Fin.ofNat 12 i) s.sga.ring[Fin.ofNat 12 i]
  | .ringB => .ringB (Fin.ofNat 12 i) s.sgb.ring[Fin.ofNat 12 i]
  | .segcfg => .segcfg (Fin.ofNat 2 i) (if i = 0 then s.sga.cfg else s.sgb.cfg)
  | .localcfg => .localcfg s.lsu.cfg
  | .timing => .timing s.pmg.timing
  | .panelcfg => .panelcfg s.pnd.cfg
  | .protect => .protect s.cfs.live

/-! ### Statuses of a TBLRD reply (R194) -/

/-- The slot status of NODE (R130). -/
def SlotRec.statusBytes (r : SlotRec) : List Byte :=
  byte r.state.code :: beBytes 4 ((r.serial.map BitVec.toNat).getD 0) ++
    [optByte (r.lastSeg.map fun g => byte (segCode g)), optByte (r.lastSeq.map fun q => byte q.val), byte r.miss,
     byte r.lost, r.events, flagByte r.owed]

/-- One pass-through record of a segment status (R107). Each record takes four bytes: the answer status of one that is not
ANSWERED is written 0xFF (DESIGN CHOICE, log entry 33). -/
def PassRecord.statusBytes (r : PassRecord) : List Byte :=
  [r.tag, byte r.slot.val, byte r.state.code,
   match r.state with
   | .answered st _ _ => byte st.code
   | _ => 0xFF]

/-- The segment status of SEGCFG (R107). An absent poll record is written as 0xFF for each of its three fields: the spec
does not say whether it takes one byte or three (DESIGN CHOICE, log entry 33). -/
def Segment.statusBytes (g : Segment) : List Byte :=
  [byte g.state.code, byte g.pointer.val, optByte (g.poll.map fun p => byte p.slot.val),
   optByte (g.poll.map fun p => byte p.entry.val), optByte (g.poll.bind fun p => p.tag), byte g.records.length] ++
    g.records.flatMap PassRecord.statusBytes

/-- The 19 results packed at 10 bits each, first channel first, most significant bit first, into 24 bytes
(section 10.10). The two bits left over stand last and are zero (DEDUCED, log entry 12). -/
def packResults (v : Vector Count 19) : List Byte :=
  beBytes 24 (((List.finRange 19).foldl (fun acc i => acc * 1024 + v[i].val) 0) * 4)

/-- The LSU status of LOCALCFG (R78). -/
def Lsu.statusBytes (l : Lsu) : List Byte :=
  [flagByte (l.remaining ≠ []), flagByte l.low] ++ beBytes 2 l.lastSupply.val ++ [byte l.seq0.val, byte l.seq1.val] ++
    packResults l.results

/-- The time left of a running timer: the free value within the duration it started with (log entry 3). -/
def remaining (n duration : Nat) : Byte := byte (min (Config.timeLeft n) duration)

/-- The PMG status of TIMING (R187). The run-down time remaining is the free value `n`. -/
def Pmg.statusBytes (m : Pmg) (n : Nat) : List Byte :=
  [byte m.power.code, optByte (m.sub.map fun x => byte x.code), byte (ignitionCode m.ignition),
   byte (doorCode m.doorOpen), flagByte m.moving, flagByte m.locked, flagByte m.seen,
   optByte (m.runDown.map (remaining n)), flagByte m.sleepReq, byte m.watchSet.length] ++ m.watchSet.map (fun p => byte p.val) ++ beBytes 2 m.dwell ++
    [byte m.elapsed, byte m.alertNumber, flagByte m.alertOwed, flagByte m.wakenoteOwed, byte m.causes.code]

/-- Sixteen half-bytes two to a byte, the lower position in the high half (section 10.10). -/
def packHalves (f : Pos → Nat) : List Byte :=
  (List.finRange 8).map fun i => byte (f (Fin.ofNat 16 (2 * i.val)) * 16 + f (Fin.ofNat 16 (2 * i.val + 1)))

/-- A chime request as a half-byte: the tone, 0xF for absent (section 10.10). -/
def requestHalf : Option Tone → Nat
  | some t => t.val
  | none => 0xF

/-- The PND and CHD status of PANELCFG (R167). The times remaining are the free values `n` and `n + 1`. The items of two
values (scan running or stopped, a test running or not, a request standing or absent) are written as flags, 1 for
running and standing: section 10.10 does not say whether they are flags or enumerations coded by place (DESIGN CHOICE,
log entry 34). -/
def panelStatusBytes (d : Pnd) (c : Chd) (n : Nat) : List Byte :=
  [flagByte d.scanning, byte d.flash.code, flagByte d.test,
   if d.test then remaining n Config.panelTestSeconds else 0xFF] ++
    packHalves (fun p => d.image[p].code) ++
    [byte c.grant.code, flagByte c.alert.isSome, flagByte c.test.isSome,
     if c.test.isSome then remaining (n + 1) Config.chimeTestSeconds else 0xFF] ++
    packHalves (fun p => requestHalf c.requests[p])

/-- The owner's status that follows the entry in a TBLRD reply (R194). -/
def State.statusBytes (s : State) (t : TableId) (i : Nat) : List Byte :=
  match t with
  | .node => s.slots[Fin.ofNat 16 i].statusBytes
  | .segcfg => if i = 0 then s.sga.statusBytes else s.sgb.statusBytes
  | .localcfg => s.lsu.statusBytes
  | .timing => s.pmg.statusBytes s.free
  | .panelcfg => panelStatusBytes s.pnd s.chd s.free
  | _ => []

/-- How many free values a table's status reads. -/
def TableId.freeUsed : TableId → Nat
  | .timing => 1
  | .panelcfg => 2
  | _ => 0

/-! ### Notices and answers -/

/-- The POSNOTE fields of a position (R15; 12 bytes). -/
def posnoteBytes (p : Pos) (r : Position) : List Byte :=
  [byte p.val, byte r.presence.code, byte (sourceCode r.source), byte r.cls.code, byte r.band.code] ++
    beBytes 2 r.load ++ [byte r.footprint, byte r.buckle.code, byte (anchorCode r.anchorA r.anchorB),
      byte r.tag.code, byte r.rem.state.code]

/-- The POSQRY reply body (R16): the POSNOTE fields, pending candidate and count, seed due, notice owed, and the
24 remaining windows as a list preceded by its count. -/
def posqryBytes (p : Pos) (r : Position) : List Byte :=
  posnoteBytes p r ++
    [optByte (r.pending.map fun q => byte q.cls.code), byte ((r.pending.map (·.count)).getD 0), flagByte r.seedDue,
     flagByte r.owed, byte 24] ++
    (List.finRange 24).map fun i => byte r.armed[i]

/-- The SEATNOTE of a slot (R129; 8 bytes). -/
def seatnoteBytes (i : Slot) (r : SlotRec) : List Byte :=
  [byte i.val, byte r.state.code] ++ beBytes 4 ((r.serial.map BitVec.toNat).getD 0) ++
    [optByte (r.lastSeg.map fun g => byte (segCode g)), r.events]

/-- The seat index and slot fields of a watched position in an ALERT, 0 for LOCAL (section 10.10). -/
def alertSource : Option Source → Nat × Nat
  | some (.seat s i) => (i.val, s.val)
  | _ => (0, 0)

/-- The two bytes of a watched position in an ALERT (section 10.10). -/
def alertPosBytes (p : Pos) (r : Position) : List Byte :=
  let src := alertSource r.source
  [byte (p.val * 16 + r.presence.code * 4 + src.1), byte (r.cls.code * 32 + src.2 * 2)]

/-- The ALERT (R179; 5 + 2w bytes). -/
def State.alertBytes (s : State) : List Byte :=
  [byte s.pmg.alertNumber, optByte (s.pmg.sub.map fun x => byte x.code)] ++ beBytes 2 s.pmg.timing.dwell ++
    [byte s.pmg.watchSet.length] ++ s.pmg.watchSet.flatMap fun p => alertPosBytes p s.positions[p]

/-- The NODEANS of an ANSWERED record (R103): slot, status, answer body. -/
def PassRecord.answerBytes (r : PassRecord) : List Byte :=
  match r.state with
  | .answered st body _ => [byte r.slot.val, byte st.code] ++ body
  | _ => [byte r.slot.val]

/-- The MIRROR of a copy (R203). -/
def MirrorCopy.bytes (c : MirrorCopy) : List Byte :=
  [byte c.slot.val, byte (segCode c.seg)] ++ beBytes 4 c.serial.toNat ++ [byte c.seq.val, c.flags, byte c.count] ++ c.raw

/-- The WAKENOTE (R185; 3 bytes). -/
def State.wakenoteBytes (s : State) : List Byte :=
  [byte s.pmg.causes.code, byte s.pmg.power.code, byte s.cfs.summary.toNat]

/-- The IDENTQ reply body (R197; 12 bytes). -/
def State.identBytes (s : State) : List Byte :=
  beBytes 2 Config.vendorCode ++ beBytes 2 Config.partCode ++
    [byte Config.revision, byte s.pmg.power.code,
     byte (s.cfs.effective.toNat + 128 * s.cfs.store.lock.toNat), byte s.tkp.flags.code, byte s.sga.flagCode,
     byte s.sgb.flagCode, byte s.lsu.flagCode, byte s.cfs.flagCode]

/-- The payload of a REPLY: request kind, status, body (section 10.10). -/
def Reply.bytes (r : Reply) : List Byte := [r.kind, byte r.status.code] ++ r.body

/-- The bytes of an outbound frame on TRK_TX (R188). -/
def OutFrame.bytes (f : OutFrame) : List Byte := frameBytes f.kind f.tag f.payload

end Sys2Proof.Machine
end

