-- ==== Sys2Proof/Machine/Trunk.lean ====
section
/-! DEFINITION. TKP (10_trunk_link_and_management_frames.md): the taking of a frame, replies, the checks of table
frames, and the transmit arbiter. -/

namespace Sys2Proof.Machine

/-! ### Replies (R191) -/

/-- The places of the reply FIFO that are taken, filled or reserved (R191). -/
def Tkp.placesTaken (t : Tkp) : Nat := t.replies.length + t.reserved.isSome.toNat

/-- A frame's place filled with its REPLY (R191). -/
def State.reply (s : State) (tag kind : Byte) (st : Status) (body : List Byte) : State :=
  s.modTkp fun t => { t with replies := t.replies ++ [{ tag := tag, kind := kind, status := st, body := body }] }

/-- A frame's place kept reserved for a store operation (R191, R208, R210, R211). -/
def State.reserve (s : State) (tag kind : Byte) : State :=
  s.modTkp fun t => { t with reserved := some { tag := tag, kind := kind } }

/-- The store operation fills the reserved place (R191). -/
def State.fillReserved (s : State) (st : Status) (body : List Byte) : State :=
  match s.tkp.reserved with
  | some r => (s.modTkp fun t => { t with reserved := none }).reply r.tag r.kind st body
  | none => s

/-! ### Taking a frame (R190) -/

/-- The receiver returns to HUNT as a frame completes (R189). -/
def State.rxHunt (s : State) : State := s.modTkp fun t => { t with rx := .hunt }

/-- The tests of R190 that stand before dispatch, on a frame of a known kind whose check holds: room for a reply,
STARTING, length. `own` is the owner's taking of the frame. Outside IN_FRAME no frame completes (log entry 9). -/
def State.takeFrame (s : State) (kind tag : Byte) (fits : Bool) (own : State → State) : State :=
  if s.tkp.rx ≠ .inFrame then s
  else
    let s1 := s.rxHunt
    if Config.replyPlaces ≤ s1.tkp.placesTaken then s1.modFlags fun f => { f with replyOverrun := true }
    else if s1.pmg.power = .starting ∧ kind ≠ Kind.identq then s1.reply tag kind .starting []
    else if !fits then s1.reply tag kind .length []
    else own s1

/-! ### Table frames (R193) -/

/-- A refusal of TBLWR or TBLRD carries the table id and index (R192). -/
def State.refuseTable (s : State) (tag kind table index : Byte) (st : Status) : State :=
  s.reply tag kind st [table, index]

/-- A table id outside 1..12 sets BAD_TABLE (R193, R196). -/
def State.badTable (s : State) : State := s.modFlags fun f => { f with badTable := true }

/-- The checks of R193 on a TBLWR of table `t`, the owner's validation and storing, and the REPLY with the entry as
stored (R194). -/
def State.writeTable (s : State) (t : TableId) (tag index : Byte) (entry : List Byte)
    (own : Nat → List Byte → State → Except Status State) : State :=
  let id := byte t.id
  if t.count ≤ index.toNat then s.refuseTable tag Kind.tblwr id index .range
  else if entry.length ≠ t.entrySize then s.refuseTable tag Kind.tblwr id index .length
  else if s.cfs.protects t then s.refuseTable tag Kind.tblwr id index .isProtected
  else
    match own index.toNat entry s with
    | .error st => s.refuseTable tag Kind.tblwr id index st
    | .ok s' => s'.reply tag Kind.tblwr .ok (id :: index :: s'.entryBytes t index.toNat)

/-- A TBLWR of table `t` is taken (R190, R193). Its payload has 2 bytes or more, so it fits its kind. -/
def State.takeWrite (s : State) (t : TableId) (tag index : Byte) (entry : List Byte)
    (own : Nat → List Byte → State → Except Status State) : State :=
  s.takeFrame Kind.tblwr tag true fun s1 => s1.writeTable t tag index entry own

/-! ### The arbiter (R201) -/

/-- A candidate of the arbiter. -/
inductive Candidate where
  | alert
  | reply (r : Reply)
  | nodeans (g : Seg) (r : PassRecord)
  | wakenote
  | posnote (p : Pos)
  | seatnote (i : Slot)
  | mirror (c : MirrorCopy)
deriving DecidableEq, Repr

/-- The segments' offers, segment A first (R103). -/
def State.nodeansOffer (s : State) : Option Candidate :=
  match s.sga.offer with
  | some r => some (.nodeans .a r)
  | none => s.sgb.offer.map (.nodeans .b)

/-- The lowest-index position whose notice is owed (R201). -/
def State.owedPos (s : State) : Option Pos := (List.finRange 16).find? fun p => s.positions[p].owed

/-- The lowest slot whose notice is owed (R201). -/
def State.owedSlot (s : State) : Option Slot := (List.finRange 16).find? fun i => s.slots[i].owed

/-- The first eligible candidate of a machine in RUN or PARK_WATCH, in the order of R201. -/
def State.firstCandidate (s : State) : Option Candidate :=
  if s.pmg.alertOwed then some .alert
  else
    (s.tkp.replies.head?.map Candidate.reply).or <|
      s.nodeansOffer.or <|
        (if s.pmg.wakenoteOwed then some Candidate.wakenote else none).or <|
          (s.owedPos.map Candidate.posnote).or <|
            (s.owedSlot.map Candidate.seatnote).or <| s.tkp.mirror.head?.map Candidate.mirror

/-- The arbiter's choice: in STARTING the reply FIFO head alone, in SLEEP no send starts (R201, R204), and none while
a frame is being sent (R200). -/
def State.arbiter (s : State) : Option Candidate :=
  if s.tkp.tx.isSome then none
  else
    match s.pmg.power with
    | .sleep => none
    | .starting => s.tkp.replies.head?.map Candidate.reply
    | _ => s.firstCandidate

/-- A send starts (R200). -/
def State.startSend (s : State) (kind tag : Byte) (payload : List Byte) (act : SendAction) : State :=
  s.modTkp fun t => { t with tx := some { frame := { kind := kind, tag := tag, payload := payload }, action := act } }

end Sys2Proof.Machine
end

