-- ==== Sys2Proof/Machine/Resets.lean ====
section
/-! DEFINITION. Hard reset with the load, the end of the load, and the effect of a soft reset (R171, R199, R206). -/

namespace Sys2Proof.Machine

/-- What a step answers. -/
abbrev StepResult := Host.Outcome State Fault Refusal

/-- The machine after hard reset and the load of a store: every block at its hard reset values, the tables as their
records load (R171, R206; log entry 7). -/
def State.boot (st : Store) (queue : List Instr) (free : Nat) : State :=
  { State.reset with
    sga := Segment.boot (loadPlain RingEntry.invalid st.ringA) (st.segcfg[(0 : Fin 2)].getD SegCfg.default)
    sgb := Segment.boot (loadPlain RingEntry.invalid st.ringB) (st.segcfg[(1 : Fin 2)].getD SegCfg.default)
    node := st.loadNode
    lsu := Lsu.boot (st.localcfg.getD LocalCfg.default)
    seatmap := st.loadSeatmap
    poscfg := loadPlain PosCfg.default st.poscfg
    rules := st.loadRule
    profiles := loadPlain ProfileEntry.default st.profile
    pnd := Pnd.boot (st.panelcfg.getD PanelCfg.default)
    pmg := { Pmg.reset with timing := st.timing.getD Timing.default }
    cfs := Cfs.boot st
    pending := queue
    free := free }

/-- Hard reset: an operation in flight ends as R212 gives, and everything else is at its reset value. The queue and
the free counter are the model's own and stay (log entry 26). -/
def State.hardReset (s : State) : State := State.boot s.cfs.interrupted s.pending s.free

/-- The load completes: PMG enters RUN with the levels of IGN and DOOR (R171). -/
def State.loadComplete (s : State) (ign door : Bool) : State :=
  (s.modPmg fun m =>
    { m with power := .run, ignition := ign, doorOpen := door, wakenoteOwed := true }.startRunDown).startBlocks

/-- PMG at a soft reset (R168, R170). -/
def Pmg.softReset (m : Pmg) (ign door : Bool) : Pmg :=
  { m.endWatch with
    power := .run, ignition := ign, doorOpen := door, moving := m.moving && ign, sleepReq := false,
    causes := { m.causes with soft := true }, wakenoteOwed := true }.startRunDown

/-- The soft reset (R199): slots, positions, reminders, chime, glyphs, records and FIFOs cleared, RUN entered; out of
SLEEP as a wake does. -/
def State.softReset (s : State) (ign door : Bool) : State :=
  let s0 := if s.pmg.power = .sleep then s.leaveSleep else s
  ({ s0 with
    tkp := { s0.tkp with replies := [], mirror := [], softReset := false }
    sga := s0.sga.abandon
    sgb := s0.sgb.abandon
    slots := Vector.replicate 16 SlotRec.reset
    lsu := s0.lsu.softReset
    positions := Vector.replicate 16 Position.reset
    chd := Chd.reset
    pnd := s0.pnd.softReset
    toChime := []
    pmg := s0.pmg.softReset ign door }).startBlocks

/-- HARD_RESET (R171). -/
def execHardReset (s : State) : StepResult := .next s.hardReset

/-- LOAD_COMPLETE (R171). -/
def execLoadComplete (ign door : Bool) (s : State) : StepResult :=
  .next (if s.pmg.power = .starting then s.loadComplete ign door else s)

end Sys2Proof.Machine
end

