-- ==== Sys2Proof/Machine/BlockEvents.lean ====
section
/-! DEFINITION. The meanings of the events of LSU, RME, CHD, PND and CFS: conversions, the reminder tick, the chime and
panel timers, and the completion of store operations. -/

namespace Sys2Proof.Machine

/-! ### LSU (R69, R70) -/

/-- SCAN_INTERVAL_EXPIRY (R69). -/
def execScanIntervalExpiry (s : State) : StepResult :=
  .next <|
    if s.pmg.power = .run ∧ s.lsu.timer.isSome then { s with lsu := { s.lsu with timer := none } }.requestScan
    else s

/-- CONVERSION_COMPLETE (R70). -/
def execConversionComplete (result : Count) (ancA ancB : Bool) (s : State) : StepResult :=
  .next (if s.lsu.remaining = [] then s else (s.conversion result ancA ancB).settle)

/-! ### RME (R141) -/

/-- Position `p` handles a reminder tick (R141). -/
def State.tickAt (s : State) (p : Pos) : State :=
  s.applyReminder p (tickReminder (s.remInputs p) s.positions[p].rem)

/-- Every position handles a reminder tick (R141). -/
def State.tickAll (s : State) : State := (List.finRange 16).foldl State.tickAt s

/-- REMINDER_TICK (R135, R141): the timer restarts with the period as it then stands. -/
def execReminderTick (s : State) : StepResult :=
  .next <|
    if s.pmg.power = .run ∧ s.tick.isSome then
      ({ s with tick := some (tickPeriod s.pmg.timing.tick) }.tickAll).settle
    else s

/-! ### CHD (R158, R159) -/

/-- The other tone of the alert pattern (R158). -/
def AlertPhase.next : AlertPhase → AlertPhase
  | .tone3 => .tone1
  | .tone1 => .tone3

/-- CHD changed. -/
def State.modChd (s : State) (f : Chd → Chd) : State := { s with chd := f s.chd }

/-- ALERT_PATTERN_TIMER (R158): it runs while the alert request stands. -/
def execAlertPatternTimer (s : State) : StepResult :=
  .next (s.modChd fun c => { c with alert := c.alert.map AlertPhase.next })

/-- The next quarter of a test request, the last excepted (R159). -/
def nextQuarter (q : Fin 4) : Fin 4 := if q = 3 then 3 else q + 1

/-- CHIME_TEST_QUARTER (R159): the timer runs whether or not the test holds the grant. -/
def execChimeTestQuarter (s : State) : StepResult :=
  .next (s.modChd fun c => { c with test := c.test.map nextQuarter })

/-- CHIME_TEST_END (R159): it comes at the end of the fourth quarter. -/
def execChimeTestEnd (s : State) : StepResult := .next (if s.chd.test = some 3 then s.modChd Chd.endTest else s)

/-! ### PND (R161 to R165) -/

/-- PND changed, while its scan runs (R164, R166). -/
def State.whileScanning (s : State) (f : Pnd → Pnd) : State :=
  if s.pnd.scanning then { s with pnd := f s.pnd } else s

/-- SCAN_FRAME_START (R162, R163, R165). -/
def execScanFrameStart (s : State) : StepResult := .next (s.whileScanning Pnd.frameStart)

/-- COMMON_SLOT (R163). -/
def execCommonSlot (s : State) : StepResult := .next (s.whileScanning Pnd.slotStart)

/-- DUTY_END (R163): for the rest of the slot no line is driven. -/
def execDutyEnd (s : State) : StepResult := .next (s.whileScanning fun n => { n with plin := 0 })

/-- The other flash phase (R161). -/
def FlashPhase.next : FlashPhase → FlashPhase
  | .a => .b
  | .b => .a

/-- FLASH_PHASE (R161): a slot under way keeps its lines. -/
def execFlashPhase (s : State) : StepResult := .next (s.whileScanning fun n => { n with flash := n.flash.next })

/-- PANEL_TEST_EXPIRY (R165): the image shows again from the next frame start. -/
def execPanelTestExpiry (s : State) : StepResult := .next { s with pnd := { s.pnd with test := false } }

/-! ### CFS (R208 to R212) -/

/-- A commit that completes with a match (R208). -/
def Cfs.committed (c : Cfs) (st : Staged) : Cfs :=
  { c with store := c.store.record true st, staging := none, op := .idle }

/-- A commit that completes with a mismatch (R208). -/
def Cfs.commitFailed (c : Cfs) (st : Staged) : Cfs :=
  { c with store := c.store.record false st, op := .idle, programFail := true }

/-- COMMIT_COMPLETE (R208). -/
def execCommitComplete (same : Bool) (s : State) : StepResult :=
  .next <|
    match s.cfs.op, s.cfs.staging with
    | .running .commit, some st =>
      if same then
        { s with cfs := s.cfs.committed st }.fillReserved .ok [byte st.table.id, byte st.index]
      else { s with cfs := s.cfs.commitFailed st }.fillReserved .failed []
    | _, _ => s

/-- ERASE_COMPLETE (R210). -/
def execEraseComplete (s : State) : StepResult :=
  .next <|
    match s.cfs.op with
    | .running (.erase r) =>
      { s with cfs := { s.cfs with store := s.cfs.store.eraseRegion r, op := .idle } }.fillReserved .ok []
    | _ => s

/-- The calibration lock set: region 1 effectively protected at once (R211). -/
def Cfs.lockDone (c : Cfs) : Cfs :=
  { c with store := { c.store with lock := true }, effective := effectiveOf true c.effective, op := .idle }

/-- LOCK_COMPLETE (R211). -/
def execLockComplete (s : State) : StepResult :=
  .next <|
    match s.cfs.op with
    | .running .lock => { s with cfs := s.cfs.lockDone }.fillReserved .ok []
    | _ => s

end Sys2Proof.Machine
end

