-- ==== Sys2Proof/Machine/Frames.lean ====
section
/-! DEFINITION. The meanings of the receiver's events and of the inbound frames other than TBLWR (R189, R190 and the
owning chapters). -/

namespace Sys2Proof.Machine

/-! ### The receiver (R189, R190, R204) -/

/-- A frame in reception is abandoned with BAD_FRAME (R189). -/
def State.abandonFrame (s : State) : State := s.rxHunt.modFlags fun f => { f with badFrame := true }

/-- FRAME_SYNC (R189): 0xA5 in HUNT opens a frame, any other byte is discarded. -/
def execFrameSync (b : Byte) (s : State) : StepResult :=
  .next (if s.tkp.rx = .hunt ∧ b = Config.syncByte then s.modTkp fun t => { t with rx := .inFrame } else s)

/-- FRAME_GAP_ABANDON (R189). -/
def execFrameGapAbandon (s : State) : StepResult :=
  .next (if s.tkp.rx = .inFrame then s.abandonFrame else s)

/-- LENGTH_ABANDON (R189): a length of 48 or less abandons nothing. -/
def execLengthAbandon (length : Byte) (s : State) : StepResult :=
  .next (if s.tkp.rx = .inFrame ∧ Config.maxPayload < length.toNat then s.abandonFrame else s)

/-- TRUNK_CHECK_FAIL (R190, test 1). -/
def execTrunkCheckFail (s : State) : StepResult :=
  .next (if s.tkp.rx = .inFrame then s.rxHunt.modFlags fun f => { f with badCheck := true } else s)

/-- RX_HUNT_RESUME (R204). -/
def execRxHuntResume (s : State) : StepResult :=
  .next (if s.tkp.rx = .waitIdle then s.rxHunt else s)

/-- UNKNOWN_KIND (R190, tests 2 and 3): BAD_KIND is set either way. A kind that is inbound is not unknown and does
nothing here (log entry 31). -/
def execUnknownKind (kind tag : Byte) (s : State) : StepResult :=
  .next <|
    if s.tkp.rx = .inFrame ∧ inboundKind kind = false then
      let s1 := s.rxHunt.modFlags fun f => { f with badKind := true }
      if Config.replyPlaces ≤ s1.tkp.placesTaken then s1.modFlags fun f => { f with replyOverrun := true }
      else s1.reply tag kind .unknown []
    else s

/-! ### VEHSTAT (R170, R190) -/

/-- PMG takes a vehicle record: moving follows the frame while the ignition is on (R170). -/
def Pmg.vehicle (m : Pmg) (moving locked : Bool) : Pmg :=
  { m with moving := moving && m.ignition, locked := locked, seen := true }

/-- A VEHSTAT of the right length: a change of moving goes to RME, a change of doors locked to the dwell (R170). -/
def State.takeVehicle (s : State) (b : Byte) : State :=
  let s1 := s.modPmg fun m => m.vehicle (b.getLsbD 0) (b.getLsbD 1)
  let s2 := if s1.pmg.moving ≠ s.pmg.moving then s1.evalAll else s1
  if s1.pmg.locked ≠ s.pmg.locked then s2.modPmg Pmg.dwellReview else s2

/-- VEHSTAT (R170, R190): it needs no reply; discarded in STARTING, and with BAD_FRAME when its length is not 1. -/
def execVehstat (payload : List Byte) (s : State) : StepResult :=
  .next <|
    if s.tkp.rx ≠ .inFrame then s
    else if s.pmg.power = .starting then s.rxHunt
    else
      match payload with
      | [b] => (s.rxHunt.takeVehicle b).settle
      | _ => s.abandonFrame

/-! ### Reads (R193, R194, R16) -/

/-- A TBLRD after the length test (R193, R194): the free values its status read are used up. -/
def State.readTable (s : State) (tag table index : Byte) : State :=
  match tableOfId table.toNat with
  | none => s.badTable.refuseTable tag Kind.tblrd table index .table
  | some t =>
    if t.count ≤ index.toNat then s.refuseTable tag Kind.tblrd table index .range
    else
      { s with free := s.free + t.freeUsed }.reply tag Kind.tblrd .ok
        (table :: index :: (s.entryBytes t index.toNat ++ s.statusBytes t index.toNat))

/-- TBLRD (R194). -/
def execTblrd (tag : Byte) (payload : List Byte) (s : State) : StepResult :=
  .next <| s.takeFrame Kind.tblrd tag (payload.length = 2) fun s1 =>
    s1.readTable tag (payload.getD 0 0) (payload.getD 1 0)

/-- POSQRY (R16). -/
def execPosqry (tag : Byte) (payload : List Byte) (s : State) : StepResult :=
  .next <| s.takeFrame Kind.posqry tag (payload.length = 1) fun s1 =>
    if 15 < u8 payload 0 then s1.reply tag Kind.posqry .range []
    else
      let p := Fin.ofNat 16 (u8 payload 0)
      s1.reply tag Kind.posqry .ok (posqryBytes p s1.positions[p])

/-! ### NODEREQ (R195, R99) -/

/-- The status with which a segment answers a request at once, if it does (R97, R98, R99). The slot is ACTIVE on this
segment, as TKP tested in the same step (R195). -/
def Segment.refusal (g : Segment) (slot : Slot) : Option AnswerStatus :=
  match g.state with
  | .stopped => some .segmentOff
  | .fault => some .segmentFault
  | _ => if slot ∈ g.walkSlots then none else some .notPresent

/-- A request appended as a QUEUED record and checked at once (R99). -/
def Segment.accept (g : Segment) (tag : Byte) (slot : Slot) (body : List Byte) : Segment :=
  let st :=
    match g.refusal slot with
    | none => RecordState.queued
    | some a => .answered a [] (g.records.countP PassRecord.isAnswered)
  { g with records := g.records ++ [{ tag := tag, slot := slot, body := body, state := st }] }

/-- A NODEREQ whose length fits (R195, tests 2 to 4): an accepted one gets no REPLY. -/
def State.request (s : State) (tag slotByte : Byte) (body : List Byte) : State :=
  if 15 < slotByte.toNat then s.reply tag Kind.nodereq .range []
  else
    let slot := Fin.ofNat 16 slotByte.toNat
    match s.slots[slot].state, s.slots[slot].lastSeg with
    | .active, some g =>
      if Config.recordPlaces ≤ (s.seg g).records.length then s.reply tag Kind.nodereq .busy []
      else s.modSeg g fun x => x.accept tag slot body
    | _, _ => s.reply tag Kind.nodereq .notPresent []

/-- NODEREQ (R195): a slot byte and a body of 1..8 bytes. -/
def execNodereq (tag : Byte) (payload : List Byte) (s : State) : StepResult :=
  .next <| s.takeFrame Kind.nodereq tag (2 ≤ payload.length ∧ payload.length ≤ 9) fun s1 =>
    s1.request tag (payload.getD 0 0) (payload.drop 1)

/-! ### Store commands (R207 to R211) -/

/-- CFS changed. -/
def State.modCfs (s : State) (f : Cfs → Cfs) : State := { s with cfs := f s.cfs }

/-- STAGE after the length test (R207). -/
def State.stageEntry (s : State) (tag table index : Byte) : State :=
  match tableOfId table.toNat with
  | none => s.badTable.reply tag Kind.stage .table []
  | some t =>
    if t.count ≤ index.toNat then s.reply tag Kind.stage .range []
    else if s.cfs.op ≠ .idle then s.reply tag Kind.stage .busy []
    else
      (s.modCfs fun c => { c with staging := some (s.entryToStage t index.toNat) }).reply tag Kind.stage .ok
        (table :: index :: s.entryBytes t index.toNat)

/-- STAGE (R207). -/
def execStage (tag : Byte) (payload : List Byte) (s : State) : StepResult :=
  .next <| s.takeFrame Kind.stage tag (payload.length = 2) fun s1 =>
    s1.stageEntry tag (payload.getD 0 0) (payload.getD 1 0)

/-- The first check of R208 that refuses a COMMIT, if any. -/
def Cfs.commitRefusal (c : Cfs) : Option Status :=
  match c.staging with
  | none => some .notStaged
  | some st =>
    if c.op ≠ .idle then some .busy
    else if c.protects st.table then some .isProtected
    else if st.table = .protect ∧ c.store.lock then some .locked
    else none

/-- A store operation starts with its reply place reserved (R208, R210, R211). -/
def State.startOp (s : State) (tag kind : Byte) (op : StoreOp) : State :=
  (s.modCfs fun c => { c with op := .running op }).reserve tag kind

/-- COMMIT (R208). -/
def execCommit (tag : Byte) (payload : List Byte) (s : State) : StepResult :=
  .next <| s.takeFrame Kind.commit tag (payload = []) fun s1 =>
    match s1.cfs.commitRefusal with
    | some st => s1.reply tag Kind.commit st []
    | none => s1.startOp tag Kind.commit .commit

/-- A commit cancelled: its target erased, staging kept, its place filled CANCELLED (R209). -/
def State.cancelCommit (s : State) : State :=
  (s.modCfs fun c => { c with store := c.eraseTarget, op := .idle }).fillReserved .cancelled []

/-- NVCANCEL (R209). -/
def execNvcancel (tag : Byte) (payload : List Byte) (s : State) : StepResult :=
  .next <| s.takeFrame Kind.nvcancel tag (payload = []) fun s1 =>
    match s1.cfs.op with
    | .idle => (s1.modCfs fun c => { c with staging := none }).reply tag Kind.nvcancel .ok []
    | .running .commit => s1.cancelCommit.reply tag Kind.nvcancel .ok []
    | _ => s1.reply tag Kind.nvcancel .busy []

/-- The first check of R210 that refuses an NVERASE of region `r`, if any. -/
def Cfs.eraseRefusal (c : Cfs) (r : Nat) : Option Status :=
  if 3 < r then some .range
  else if c.store.lock then some .locked
  else if c.effective.getLsbD r then some .isProtected
  else if c.op ≠ .idle then some .busy
  else none

/-- NVERASE (R210). -/
def execNverase (tag : Byte) (payload : List Byte) (s : State) : StepResult :=
  .next <| s.takeFrame Kind.nverase tag (payload.length = 1) fun s1 =>
    match s1.cfs.eraseRefusal (u8 payload 0) with
    | some st => s1.reply tag Kind.nverase st []
    | none => s1.startOp tag Kind.nverase (.erase (Fin.ofNat 4 (u8 payload 0)))

/-- The effective protection after PROTLOAD: the stored word, region 1 protected whatever it holds when the lock is set
(R211). A stored word that is erased protects no region, but for region 1 under the lock (DEDUCED, log entry 36). -/
def Cfs.protload (c : Cfs) : Cfs := { c with effective := effectiveOf c.store.lock c.store.word }

/-- PROTLOAD (R211). -/
def execProtload (tag : Byte) (payload : List Byte) (s : State) : StepResult :=
  .next <| s.takeFrame Kind.protload tag (payload = []) fun s1 =>
    if s1.cfs.op ≠ .idle then s1.reply tag Kind.protload .busy []
    else
      let s2 := s1.modCfs Cfs.protload
      s2.reply tag Kind.protload .ok [byte s2.cfs.effective.toNat]

/-- CALLOCK (R211): OK at once with the lock already set. -/
def execCallock (tag : Byte) (payload : List Byte) (s : State) : StepResult :=
  .next <| s.takeFrame Kind.callock tag (payload = []) fun s1 =>
    if s1.cfs.store.lock then s1.reply tag Kind.callock .ok []
    else if s1.cfs.op ≠ .idle then s1.reply tag Kind.callock .busy []
    else s1.startOp tag Kind.callock .lock

/-! ### Requests to PMG, CHD and PND -/

/-- SLEEPREQ (R173). -/
def execSleepreq (tag : Byte) (payload : List Byte) (s : State) : StepResult :=
  .next <| s.takeFrame Kind.sleepreq tag (payload = []) fun s1 =>
    if s1.pmg.power = .run ∧ s1.pmg.ignition = false then
      (s1.modPmg fun m => { m with sleepReq := true }).reply tag Kind.sleepreq .ok []
    else s1.reply tag Kind.sleepreq .state []

/-- The alert acknowledged: SILENCED, the request withdrawn, the repeat stopped, ALERT owed cleared (R180). -/
def State.silence (s : State) : State :=
  { s with
    chd := s.chd.withdrawAlert
    pmg := { s.pmg with sub := some .silenced, alertRepeat := none, alertOwed := false } }

/-- ALERTACK (R180). -/
def execAlertack (tag : Byte) (payload : List Byte) (s : State) : StepResult :=
  .next <| s.takeFrame Kind.alertack tag (payload = []) fun s1 =>
    match s1.pmg.sub with
    | some .alerting => s1.silence.reply tag Kind.alertack .ok []
    | some .silenced => s1.reply tag Kind.alertack .ok []
    | _ => s1.reply tag Kind.alertack .state []

/-- CHIMETST (R159). -/
def execChimetst (tag : Byte) (payload : List Byte) (s : State) : StepResult :=
  .next <| s.takeFrame Kind.chimetst tag (payload = []) fun s1 =>
    { s1 with chd := s1.chd.raiseTest }.reply tag Kind.chimetst .ok []

/-- PANELTST (R165). -/
def execPaneltst (tag : Byte) (payload : List Byte) (s : State) : StepResult :=
  .next <| s.takeFrame Kind.paneltst tag (payload = []) fun s1 =>
    { s1 with pnd := { s1.pnd with test := true } }.reply tag Kind.paneltst .ok []

/-! ### Flags, identity, soft reset -/

/-- The flags of a block, by its CLRFLAG code, cleared by a mask: the state after and the flags as they then stand;
none for a code that names no block (R198). -/
def State.clearFlags (s : State) (block mask : Byte) : Option (State × Nat) :=
  match block.toNat with
  | 0 =>
    let s1 := s.modFlags fun f => f.cleared mask
    some (s1, s1.tkp.flags.code)
  | 1 => let s1 := s.modSeg .a fun g => g.clearFlags mask; some (s1, s1.sga.flagCode)
  | 2 => let s1 := s.modSeg .b fun g => g.clearFlags mask; some (s1, s1.sgb.flagCode)
  | 3 => let s1 := { s with lsu := s.lsu.clearFlags mask }; some (s1, s1.lsu.flagCode)
  | 4 => let s1 := s.modCfs fun c => c.clearFlags mask; some (s1, s1.cfs.flagCode)
  | _ => none

/-- CLRFLAG (R198). -/
def execClrflag (tag : Byte) (payload : List Byte) (s : State) : StepResult :=
  .next <| s.takeFrame Kind.clrflag tag (payload.length = 2) fun s1 =>
    match s1.clearFlags (payload.getD 0 0) (payload.getD 1 0) with
    | some (s2, code) => s2.reply tag Kind.clrflag .ok [byte code]
    | none => s1.reply tag Kind.clrflag .range []

/-- IDENTQ (R197). -/
def execIdentq (tag : Byte) (payload : List Byte) (s : State) : StepResult :=
  .next <| s.takeFrame Kind.identq tag (payload = []) fun s1 => s1.reply tag Kind.identq .ok s1.identBytes

/-- SOFTRST (R199): the reset itself follows at the completion of this REPLY's send. -/
def execSoftrst (tag : Byte) (payload : List Byte) (s : State) : StepResult :=
  .next <| s.takeFrame Kind.softrst tag (payload = []) fun s1 =>
    (s1.modTkp fun t => { t with softReset := true }).reply tag Kind.softrst .ok []

end Sys2Proof.Machine
end

