-- ==== Sys2Proof/Machine/PowerEvents.lean ====
section
/-! DEFINITION. The meanings of PMG's events: ignition, door, wakes, run-down and the park watch. -/

namespace Sys2Proof.Machine

/-- An ignition change to on in RUN: the run-down stops, a pending sleep request is dropped, every reminder is
evaluated (R169, R172, R173). -/
def State.ignitionOnInRun (s : State) : State :=
  (s.modPmg fun m => { m with ignition := true, runDown := none, sleepReq := false }).evalAll

/-- An ignition change to off in RUN: moving false, the run-down starts, every reminder is evaluated (R169, R170,
R172). -/
def State.ignitionOffInRun (s : State) : State :=
  (s.modPmg fun m => { m with ignition := false, moving := false }.startRunDown).evalAll

/-- The ignition level set alone. -/
def State.setIgnition (s : State) (on : Bool) : State := s.modPmg fun m => { m with ignition := on }

/-- An ignition change taken in the power state that stands (R169, R182, R184). STARTING takes no change; a change to
off outside RUN does not occur and sets the level alone. -/
def State.ignitionChange (s : State) (on : Bool) : State :=
  match s.pmg.power, on with
  | .starting, _ => s
  | .run, true => s.ignitionOnInRun
  | .run, false => s.ignitionOffInRun
  | .parkWatch, true => (s.setIgnition true).returnToRun.evalAll
  | .sleep, true => ((s.setIgnition true).wake fun c => { c with ign := true }).evalAll
  | _, false => s.setIgnition false

/-- IGNITION_CHANGE (R169): a level that is not new is no change. -/
def execIgnitionChange (on : Bool) (s : State) : StepResult :=
  .next (if on = s.pmg.ignition then s else (s.ignitionChange on).settle)

/-- The door state set (R169). -/
def State.setDoor (s : State) (ajar : Bool) : State := s.modPmg fun m => { m with doorOpen := ajar }

/-- DOOR_CHANGE (R169, R177, R184). -/
def execDoorChange (ajar : Bool) (s : State) : StepResult :=
  .next <|
    if ajar = s.pmg.doorOpen then s
    else
      match s.pmg.power with
      | .starting => s
      | .run => s.setDoor ajar
      | .parkWatch => (s.setDoor ajar).modPmg Pmg.dwellReview
      | .sleep =>
        if ajar ∧ s.pmg.timing.wakeDoor then (s.setDoor ajar).wake fun c => { c with door := true }
        else s.setDoor ajar

/-- The fitted flag of a front position in LOCALCFG (R76). -/
def LocalCfg.fitted (c : LocalCfg) : Fin 2 → Bool
  | 0 => c.fitted0
  | 1 => c.fitted1

/-- BUCKLE_WAKE (R184). -/
def execBuckleWake (front : Fin 2) (s : State) : StepResult :=
  .next <|
    if s.pmg.power = .sleep ∧ s.pmg.timing.wakeBuckle ∧ s.lsu.cfg.fitted front then
      s.wake fun c => { c with buckle := true }
    else s

/-- TRUNK_WAKE (R184): the frame carrying the activity is not received, since the receiver waits for an idle line. -/
def execTrunkWake (s : State) : StepResult :=
  .next <|
    if s.pmg.power = .sleep ∧ s.pmg.timing.wakeTrunk then s.wake fun c => { c with trunk := true } else s

/-- RUNDOWN_EXPIRY (R172): a pending sleep request is dropped and the watch set formed (R173, R174). -/
def execRundownExpiry (s : State) : StepResult :=
  .next <|
    if s.pmg.power = .run ∧ s.pmg.runDown.isSome then
      (s.modPmg fun m => { m with runDown := none, sleepReq := false }).formWatch
    else s

/-- A front position is in the watch set (R79). -/
def Pmg.watchesFront (m : Pmg) : Bool := decide (0 ∈ m.watchSet) || decide (1 ∈ m.watchSet)

/-- A watch-interval event handed to SGA, SGB and LSU, the timer restarted (R175). -/
def State.watchInterval (s : State) : State :=
  let s1 :=
    { s with
      sga := s.sga.startPass
      sgb := s.sgb.startPass
      pmg := { s.pmg with interval := some s.pmg.timing.watchInterval } }
  if s.pmg.watchesFront then s1.requestScan else s1

/-- WATCH_INTERVAL_EXPIRY (R175). -/
def execWatchIntervalExpiry (s : State) : StepResult :=
  .next (if s.pmg.power = .parkWatch ∧ s.pmg.interval.isSome then s.watchInterval else s)

/-- The alert number raised by one, stopping at 255, and ALERT owed with the repeat timer started (R178). -/
def Pmg.oweAlert (m : Pmg) : Pmg :=
  { m with alertNumber := min 255 (m.alertNumber + 1), alertOwed := true,
           alertRepeat := some m.timing.alertRepeat }

/-- The dwell has expired: ALERTING, the alert request raised at CHD (R178). -/
def State.enterAlerting (s : State) : State :=
  { s with chd := s.chd.raiseAlert, pmg := { s.pmg with sub := some .alerting }.oweAlert }

/-- DWELL_TICK (R177): counts in WATCHING alone. -/
def execDwellTick (s : State) : StepResult :=
  .next <|
    if s.pmg.power = .parkWatch ∧ s.pmg.dwellTimer ∧ s.pmg.sub = some .watching then
      let s1 := s.modPmg fun m => { m with dwell := m.dwell + 1 }
      if s1.pmg.timing.dwell ≤ s1.pmg.dwell then s1.enterAlerting else s1
    else s

/-- ALERT_REPEAT_EXPIRY (R178). -/
def execAlertRepeatExpiry (s : State) : StepResult :=
  .next <|
    if s.pmg.power = .parkWatch ∧ s.pmg.sub = some .alerting ∧ s.pmg.alertRepeat.isSome then s.modPmg Pmg.oweAlert
    else s

/-- WATCH_ELAPSED_TICK (R181). -/
def execWatchElapsedTick (s : State) : StepResult :=
  .next <|
    if s.pmg.power = .parkWatch ∧ s.pmg.elapsedTimer then
      let s1 := s.modPmg fun m => { m with elapsed := m.elapsed + 1 }
      if s1.pmg.timing.watchMax ≤ s1.pmg.elapsed then
        (s1.modPmg fun m => { m with causes := { m.causes with watchExpired := true } }).enterSleep
      else s1
    else s

end Sys2Proof.Machine
end

