-- ==== Sys2Proof/Machine/SegmentEvents.lean ====
section
/-! DEFINITION. The meanings of the segment events (R83 to R104): spacing, poll start and end, frames, the reply window,
a stuck line and its probe. -/

namespace Sys2Proof.Machine

/-- The segment is IDLE or RUNNING, the states in which it receives and watches its line (R82). -/
def Segment.listens (g : Segment) : Bool := g.state = .idle || g.state = .running

/-! ### Poll start (R88, R89, R104) -/

/-- SPACING_EXPIRY (R88). -/
def execSpacingExpiry (g : Seg) (s : State) : StepResult := .next (s.modSeg g fun x => { x with spacing := none })

/-- The segment may start a poll: RUNNING, none outstanding, spacing expired (R88). -/
def Segment.ready (g : Segment) : Bool := g.state = .running && g.poll.isNone && g.spacing.isNone

/-- A poll start in the power state that stands: by the walk in RUN, by the watch pass in PARK_WATCH (R88, R104). -/
def State.pollStart (s : State) (g : Seg) : State :=
  match s.pmg.power with
  | .run => s.modSeg g Segment.pollInRun
  | .parkWatch =>
    match (s.seg g).pass with
    | some w => s.modSeg g fun x => x.pollInPass s.watchedSlot w
    | none => s
  | _ => s

/-- POLL_START (R89, R104). -/
def execPollStart (g : Seg) (s : State) : StepResult :=
  .next (if (s.seg g).ready then s.pollStart g else s)

/-- The end of a POLL: the line released, the reply window timer started with the window the poll start took (R91). -/
def Segment.pollSent (g : Segment) : Segment :=
  match g.poll with
  | some p => if g.sending.isSome then { g with sending := none, window := some p.window } else g
  | none => g

/-- POLL_SENT (R91). -/
def execPollSent (g : Seg) (s : State) : StepResult := .next (s.modSeg g Segment.pollSent)

/-! ### The end of a poll (R92 to R95, R98) -/

/-- A poll ends without a good REPORT: the SENT record answered, the miss passed to UTR, then a disable that waited
(R95, R98, R101; log entry 14). -/
def State.pollMiss (s : State) (g : Seg) (p : PollRec) (st : AnswerStatus) : State :=
  ((s.modSeg g fun x => (x.answerSent st []).endPoll).handleMiss g p.slot).afterPoll g

/-- A poll ends with a good REPORT (R92, R95, R101). -/
def State.pollGood (s : State) (g : Seg) (r : Report) : State :=
  ((s.modSeg g fun x => (x.answerSent .ok r.answer).endPoll).handleReport g r).afterPoll g

/-- BAD_CHECK of a segment set (R108). -/
def Segment.flagCheck (g : Segment) : Segment := { g with badCheck := true }

/-- UNSOLICITED of a segment set (R108). -/
def Segment.flagUnsolicited (g : Segment) : Segment := { g with unsolicited := true }

/-- A frame in reception on a segment that receives (R82, R83). -/
def Segment.inReception (g : Segment) : Bool := g.listens && g.reception = .receiving

/-- A frame that ended the poll of `p` is judged (R92). -/
def State.judge (s : State) (g : Seg) (p : PollRec) (bytes : List Byte) : State :=
  match parseReport bytes with
  | none => (s.modSeg g Segment.flagCheck).pollMiss g p .noResponse
  | some r =>
    if r.slot = p.slot then s.pollGood g r
    else (s.modSeg g Segment.flagUnsolicited).pollMiss g p .noResponse

/-- The frame in reception is over. -/
def Segment.endReception (g : Segment) : Segment := { g with reception := .none }

/-- SEGMENT_FRAME (R92, R94). -/
def execSegmentFrame (g : Seg) (bytes : List Byte) (s : State) : StepResult :=
  .next <|
    if (s.seg g).inReception then
      let s1 := s.modSeg g Segment.endReception
      match (s.seg g).poll with
      | some p => (s1.judge g p bytes).settle
      | none => s1.modSeg g Segment.flagUnsolicited
    else s

/-- SEGMENT_FRAME_CUT (R83, R92, R94): a cut frame is a frame whose check fails. -/
def execSegmentFrameCut (g : Seg) (s : State) : StepResult :=
  .next <|
    if (s.seg g).inReception then
      let s1 := s.modSeg g Segment.endReception
      match (s.seg g).poll with
      | some p => ((s1.modSeg g Segment.flagCheck).pollMiss g p .noResponse).settle
      | none => s1.modSeg g Segment.flagUnsolicited
    else s

/-- The rest of a frame in reception is ignored until the line idles (R93). -/
def Segment.ignoreFrame (g : Segment) : Segment :=
  { g with reception := if g.reception = .receiving then .ignoring else g.reception }

/-- REPLY_WINDOW_EXPIRY (R93). -/
def execReplyWindowExpiry (g : Seg) (s : State) : StepResult :=
  .next <|
    match (s.seg g).poll with
    | some p =>
      if (s.seg g).window.isSome then ((s.modSeg g Segment.ignoreFrame).pollMiss g p .noResponse).settle else s
    | none => s

/-- SEGMENT_FRAME_BEGIN (R83): the first start bit after an idle line, while the controller does not send. -/
def execSegmentFrameBegin (g : Seg) (s : State) : StepResult :=
  .next <|
    if (s.seg g).listens ∧ (s.seg g).sending = none ∧ (s.seg g).reception = .none then
      s.modSeg g fun x => { x with reception := .receiving }
    else s

/-- SEGMENT_LINE_IDLE (R93): the line has idled for more than two byte times. -/
def execSegmentLineIdle (g : Seg) (s : State) : StepResult :=
  .next (if (s.seg g).reception = .ignoring then s.modSeg g Segment.endReception else s)

/-! ### A stuck line (R96, R97) -/

/-- The first action of R96: an outstanding poll ends as a miss, its SENT record answered SEGMENT_FAULT. -/
def State.stuckPoll (s : State) (g : Seg) : State :=
  match (s.seg g).poll with
  | some p => (s.modSeg g fun x => (x.answerSent .segmentFault []).endPoll).handleMiss g p.slot
  | none => s

/-- The second and third actions of R96: QUEUED records SEGMENT_FAULT, LINE_STUCK, FAULT, the probe timer. -/
def Segment.enterFault (g : Segment) : Segment :=
  { g.answerQueued .segmentFault with
    lineStuck := true, state := .fault, probe := true, pass := none, reception := .none }

/-- The actions of R96 in order, and a disable that waited for the poll (R98). -/
def State.lineStuck (s : State) (g : Seg) : State :=
  (((s.stuckPoll g).modSeg g Segment.enterFault).loseSegment g).afterPoll g

/-- LINE_STUCK_DETECT (R96). -/
def execLineStuckDetect (g : Seg) (s : State) : StepResult :=
  .next (if (s.seg g).listens ∧ (s.seg g).sending = none then (s.lineStuck g).settle else s)

/-- FAULT ends: RUNNING with the pointer at head (R97). -/
def Segment.recover (g : Segment) : Segment :=
  { g with state := .running, pointer := g.cfg.head, headMoved := false, probe := false }

/-- PROBE_EXPIRY (R97): a line still active restarts the timer. -/
def execProbeExpiry (g : Seg) (active : Bool) (s : State) : StepResult :=
  .next <|
    if (s.seg g).state = .fault ∧ (s.seg g).probe ∧ active = false then s.modSeg g Segment.recover else s

end Sys2Proof.Machine
end

