-- ==== Sys2Proof/Machine/Sends.lean ====
section
/-! DEFINITION. The meanings of the transmitter's commands (R200 to R203): a SEND row starts the frame only where the
arbiter chooses it, and SEND_COMPLETE hands on the completion. -/

namespace Sys2Proof.Machine

/-- SEND_REPLY (R191, R201). -/
def execSendReply (s : State) : StepResult :=
  .next <|
    match s.arbiter with
    | some (.reply r) => s.startSend Kind.reply r.tag r.bytes (.reply r.kind r.status)
    | _ => s

/-- SEND_ALERT (R179): the send clears ALERT owed. -/
def execSendAlert (s : State) : StepResult :=
  .next <|
    match s.arbiter with
    | some .alert => (s.startSend Kind.alert 0 s.alertBytes .notice).modPmg fun m => { m with alertOwed := false }
    | _ => s

/-- SEND_NODEANS (R103, R195): the NODEANS carries the tag of its NODEREQ. -/
def execSendNodeans (s : State) : StepResult :=
  .next <|
    match s.arbiter with
    | some (.nodeans g r) => s.startSend Kind.nodeans r.tag r.answerBytes (.record g)
    | _ => s

/-- SEND_WAKENOTE (R185): the send clears WAKENOTE owed and empties the cause set. -/
def execSendWakenote (s : State) : StepResult :=
  .next <|
    match s.arbiter with
    | some .wakenote =>
      (s.startSend Kind.wakenote 0 s.wakenoteBytes .notice).modPmg fun m =>
        { m with wakenoteOwed := false, causes := Causes.empty }
    | _ => s

/-- SEND_POSNOTE (R15): the send clears the position's notice owed. -/
def execSendPosnote (s : State) : StepResult :=
  .next <|
    match s.arbiter with
    | some (.posnote p) =>
      (s.startSend Kind.posnote 0 (posnoteBytes p s.positions[p]) .notice).setPos p
        { s.positions[p] with owed := false }
    | _ => s

/-- SEND_SEATNOTE (R129): the send empties the slot's event set and clears its notice owed. -/
def execSendSeatnote (s : State) : StepResult :=
  .next <|
    match s.arbiter with
    | some (.seatnote i) =>
      (s.startSend Kind.seatnote 0 (seatnoteBytes i s.slots[i]) .notice).setSlot i
        { s.slots[i] with events := 0, owed := false }
    | _ => s

/-- SEND_MIRROR (R203). -/
def execSendMirror (s : State) : StepResult :=
  .next <|
    match s.arbiter with
    | some (.mirror c) => s.startSend Kind.mirror 0 c.bytes .mirror
    | _ => s

/-! ### SEND_COMPLETE (R200) -/

/-- The transmitter goes idle. -/
def State.txIdle (s : State) : State := s.modTkp fun t => { t with tx := none }

/-- A REPLY that was sent frees its place, the head of the reply FIFO (R191). -/
def State.freeHead (s : State) : State := s.modTkp fun t => { t with replies := t.replies.tail }

/-- The accepted SLEEPREQ's REPLY was sent: PMG acts if the request still stands in RUN with the ignition off
(R173). -/
def State.actSleepReq (s : State) : State :=
  if s.pmg.sleepReq ∧ s.pmg.power = .run ∧ s.pmg.ignition = false then
    (s.modPmg fun m => { m with sleepReq := false }).formWatch
  else s

/-- The completion of a REPLY by the kind and status it carried (R173, R191, R199, R200). -/
def State.replySent (s : State) (kind : Byte) (st : Status) (ign door : Bool) : State :=
  let s1 := s.freeHead
  if kind = Kind.softrst ∧ st = .ok ∧ s1.tkp.softReset then s1.softReset ign door
  else if kind = Kind.sleepreq ∧ st = .ok then s1.actSleepReq
  else s1

/-- What the completion of a send does (R200). -/
def State.sendDone (s : State) (act : SendAction) (ign door : Bool) : State :=
  match act with
  | .notice => s
  | .reply kind st => s.replySent kind st ign door
  | .record g => s.modSeg g Segment.removeOffer
  | .mirror => s.modTkp fun t => { t with mirror := t.mirror.tail }

/-- SEND_COMPLETE (R200). -/
def execSendComplete (ign door : Bool) (s : State) : StepResult :=
  .next <|
    match s.tkp.tx with
    | some x => (s.txIdle.sendDone x.action ign door).settle
    | none => s

end Sys2Proof.Machine
end

