-- ==== Sys2Proof/Machine/Writes.lean ====
section
/-! DEFINITION. The table writes: what the owner of each table checks, stores and does (R193, R194 and the owning
chapters). An owner answers the state after the write, or the status that refuses it. -/

namespace Sys2Proof.Machine

/-- NODE (R110, R111). -/
def ownNode (i : Nat) (bs : List Byte) (s : State) : Except Status State :=
  let ix := Fin.ofNat 16 i
  match parseNode bs with
  | .error st => .error st
  | .ok e => if nodeDuplicate s.node ix e then .error .duplicate else .ok { s with node := put s.node ix e }

/-- SEATMAP (R18, R19): the position the old valid entry named is cleared when it is not in NO_SEAT. -/
def ownSeatmap (i : Nat) (bs : List Byte) (s : State) : Except Status State :=
  let ix := Fin.ofNat 24 i
  match parseSeatMap bs with
  | .error st => .error st
  | .ok e =>
    if seatDuplicate s.seatmap ix e then .error .duplicate
    else
      let s1 := if s.seatmap[ix].valid then s.clearIfSeated s.seatmap[ix].pos else s
      .ok { s1 with seatmap := put s1.seatmap ix e }

/-- The record of a position after an accepted POSCFG write (R23). -/
def Position.reseed (r : Position) : Position :=
  { r with pending := none, armed := Vector.replicate 24 0, seedDue := true }

/-- POSCFG (R20, R21, R23): the reminder is re-evaluated with the profile the write stored (R152). -/
def ownPoscfg (i : Nat) (bs : List Byte) (s : State) : Except Status State :=
  let p := Fin.ofNat 16 i
  match parsePosCfg bs with
  | .error st => .error st
  | .ok c => .ok ((({ s with poscfg := put s.poscfg p c }).setPos p s.positions[p].reseed).evalAt p)

/-- A rule removed from an armed map (R50). -/
def Position.disarm (i : RuleIx) (r : Position) : Position := { r with armed := put r.armed i 0 }

/-- RULE (R48, R49, R50). -/
def ownRule (i : Nat) (bs : List Byte) (s : State) : Except Status State :=
  let ix := Fin.ofNat 24 i
  match parseRule ix bs with
  | .error st => .error st
  | .ok e =>
    if chainTooLong s.rules ix e then .error .chain
    else .ok { s with rules := put s.rules ix e,
                      positions := Vector.ofFn fun p => s.positions[p].disarm ix }

/-- RME evaluates every position that uses a PROFILE entry (R152). -/
def State.evalProfile (s : State) (i : Fin 4) : State :=
  (List.finRange 16).foldl (fun t p => if t.poscfg[p].profile = i then t.evalAt p else t) s

/-- PROFILE (R133, R152). -/
def ownProfile (i : Nat) (bs : List Byte) (s : State) : Except Status State :=
  let ix := Fin.ofNat 4 i
  match parseProfile bs with
  | .error st => .error st
  | .ok e => .ok (({ s with profiles := put s.profiles ix e }).evalProfile ix)

/-- A ring entry written on a segment: IDLE ends, QUEUED records are checked against the walk (R87, R90, R102). -/
def Segment.writeRing (g : Segment) (i : RingIx) (e : RingEntry) : Segment :=
  ({ g with ring := put g.ring i e }).endIdle.checkWalk

/-- RING_A or RING_B (R86). -/
def ownRing (g : Seg) (i : Nat) (bs : List Byte) (s : State) : Except Status State :=
  match parseRing bs with
  | .error st => .error st
  | .ok e => .ok (s.modSeg g fun x => x.writeRing (Fin.ofNat 12 i) e)

/-- A SEGCFG entry stored: a changed head moves the pointer at the next poll start, IDLE ends (R85, R90). -/
def Segment.storeCfg (g : Segment) (c : SegCfg) : Segment :=
  ({ g with cfg := c, headMoved := g.headMoved || c.head ≠ g.cfg.head }).endIdle

/-- A STOPPED segment made RUNNING with the pointer at head (R98). -/
def Segment.enableNow (g : Segment) : Segment :=
  if g.state = .stopped then { g with state := .running, pointer := g.cfg.head, headMoved := false } else g

/-- An accepted SEGCFG write at a segment (R85, R98, R102). -/
def State.writeSegCfg (s : State) (g : Seg) (c : SegCfg) : State :=
  let s1 := s.modSeg g fun x => x.storeCfg c
  let x1 := s1.seg g
  let s2 :=
    if c.enable then s1.modSeg g Segment.enableNow
    else if x1.state ≠ .stopped ∧ x1.poll = none then s1.stopSegment g
    else s1
  s2.modSeg g Segment.checkWalk

/-- SEGCFG: entry 0 is SGA's, entry 1 SGB's (R84, R85). -/
def ownSegcfg (i : Nat) (bs : List Byte) (s : State) : Except Status State :=
  match parseSegCfg bs with
  | .error st => .error st
  | .ok c => .ok (s.writeSegCfg (if i = 0 then .a else .b) c)

/-- LOCALCFG: a front position whose fitted flag the write clears is cleared when it is not in NO_SEAT (R13, R76,
R77). -/
def ownLocalcfg (_i : Nat) (bs : List Byte) (s : State) : Except Status State :=
  match parseLocalCfg bs with
  | .error st => .error st
  | .ok c =>
    let s1 := { s with lsu := { s.lsu with cfg := c } }
    let s2 := if c.fitted0 then s1 else s1.clearIfSeated 0
    .ok (if c.fitted1 then s2 else s2.clearIfSeated 1)

/-- TIMING: running timers keep their started durations (R186). -/
def ownTiming (_i : Nat) (bs : List Byte) (s : State) : Except Status State :=
  match parseTiming bs with
  | .error st => .error st
  | .ok c => .ok (s.modPmg fun m => { m with timing := c })

/-- PANELCFG: it takes effect at the next scan frame start (R162). -/
def ownPanelcfg (_i : Nat) (bs : List Byte) (s : State) : Except Status State :=
  match parsePanelCfg bs with
  | .error st => .error st
  | .ok c => .ok { s with pnd := { s.pnd with cfg := c } }

/-- PROTECT: the live word alone (R205). -/
def ownProtect (_i : Nat) (bs : List Byte) (s : State) : Except Status State :=
  .ok { s with cfs := { s.cfs with live := parseProtect bs } }

/-- A TBLWR of a table, with its owner (R193). -/
def State.takeWriteOf (s : State) (t : TableId) (tag index : Byte) (entry : List Byte) : State :=
  match t with
  | .node => s.takeWrite .node tag index entry ownNode
  | .seatmap => s.takeWrite .seatmap tag index entry ownSeatmap
  | .poscfg => s.takeWrite .poscfg tag index entry ownPoscfg
  | .rule => s.takeWrite .rule tag index entry ownRule
  | .profile => s.takeWrite .profile tag index entry ownProfile
  | .ringA => s.takeWrite .ringA tag index entry (ownRing .a)
  | .ringB => s.takeWrite .ringB tag index entry (ownRing .b)
  | .segcfg => s.takeWrite .segcfg tag index entry ownSegcfg
  | .localcfg => s.takeWrite .localcfg tag index entry ownLocalcfg
  | .timing => s.takeWrite .timing tag index entry ownTiming
  | .panelcfg => s.takeWrite .panelcfg tag index entry ownPanelcfg
  | .protect => s.takeWrite .protect tag index entry ownProtect

/-- TBLWR_NODE (R110), and every TBLWR by the bytes of its payload: under 2 bytes it is answered LENGTH, a table id
outside 1..12 sets BAD_TABLE and is refused TABLE (R190, R193; log entry 10). -/
def execTblwrNode (tag : Byte) (payload : List Byte) (s : State) : StepResult :=
  .next <| State.settle <|
    match payload with
    | t :: i :: e =>
      match tableOfId t.toNat with
      | some table => s.takeWriteOf table tag i e
      | none => s.takeFrame Kind.tblwr tag true fun s1 => s1.badTable.refuseTable tag Kind.tblwr t i .table
    | _ => s.takeFrame Kind.tblwr tag false fun s1 => s1

/-- TBLWR_SEATMAP (R18). -/
def execTblwrSeatmap (tag index : Byte) (entry : List Byte) (s : State) : StepResult :=
  .next (s.takeWrite .seatmap tag index entry ownSeatmap).settle

/-- TBLWR_POSCFG (R20). -/
def execTblwrPoscfg (tag index : Byte) (entry : List Byte) (s : State) : StepResult :=
  .next (s.takeWrite .poscfg tag index entry ownPoscfg).settle

/-- TBLWR_RULE (R48). -/
def execTblwrRule (tag index : Byte) (entry : List Byte) (s : State) : StepResult :=
  .next (s.takeWrite .rule tag index entry ownRule)

/-- TBLWR_PROFILE (R133). -/
def execTblwrProfile (tag index : Byte) (entry : List Byte) (s : State) : StepResult :=
  .next (s.takeWrite .profile tag index entry ownProfile).settle

/-- TBLWR_RING_A (R86). -/
def execTblwrRingA (tag index : Byte) (entry : List Byte) (s : State) : StepResult :=
  .next (s.takeWrite .ringA tag index entry (ownRing .a))

/-- TBLWR_RING_B (R86). -/
def execTblwrRingB (tag index : Byte) (entry : List Byte) (s : State) : StepResult :=
  .next (s.takeWrite .ringB tag index entry (ownRing .b))

/-- TBLWR_SEGCFG (R85). -/
def execTblwrSegcfg (tag index : Byte) (entry : List Byte) (s : State) : StepResult :=
  .next (s.takeWrite .segcfg tag index entry ownSegcfg).settle

/-- TBLWR_LOCALCFG (R76). -/
def execTblwrLocalcfg (tag index : Byte) (entry : List Byte) (s : State) : StepResult :=
  .next (s.takeWrite .localcfg tag index entry ownLocalcfg).settle

/-- TBLWR_TIMING (R186). -/
def execTblwrTiming (tag index : Byte) (entry : List Byte) (s : State) : StepResult :=
  .next (s.takeWrite .timing tag index entry ownTiming)

/-- TBLWR_PANELCFG (R162). -/
def execTblwrPanelcfg (tag index : Byte) (entry : List Byte) (s : State) : StepResult :=
  .next (s.takeWrite .panelcfg tag index entry ownPanelcfg)

/-- TBLWR_PROTECT (R205). -/
def execTblwrProtect (tag index : Byte) (entry : List Byte) (s : State) : StepResult :=
  .next (s.takeWrite .protect tag index entry ownProtect)

end Sys2Proof.Machine
end

