-- ==== Sys2Proof/Machine/Dispatch.lean ====
section
/-! DEFINITION. exec: one arm per command, each one call of its meaning. -/

namespace Sys2Proof.Machine

def exec (i : Instr) (s : State) : Host.Outcome State Fault Refusal :=
  match i with
  | .hardReset => Sys2Proof.Machine.execHardReset s
  | .loadComplete ign door => Sys2Proof.Machine.execLoadComplete ign door s
  | .ignitionChange on => Sys2Proof.Machine.execIgnitionChange on s
  | .doorChange ajar => Sys2Proof.Machine.execDoorChange ajar s
  | .buckleWake front => Sys2Proof.Machine.execBuckleWake front s
  | .trunkWake => Sys2Proof.Machine.execTrunkWake s
  | .rxHuntResume => Sys2Proof.Machine.execRxHuntResume s
  | .frameGapAbandon => Sys2Proof.Machine.execFrameGapAbandon s
  | .lengthAbandon length => Sys2Proof.Machine.execLengthAbandon length s
  | .trunkCheckFail => Sys2Proof.Machine.execTrunkCheckFail s
  | .unknownKind kind tag => Sys2Proof.Machine.execUnknownKind kind tag s
  | .vehstat payload => Sys2Proof.Machine.execVehstat payload s
  | .tblwrNode tag payload => Sys2Proof.Machine.execTblwrNode tag payload s
  | .tblwrSeatmap tag index entry => Sys2Proof.Machine.execTblwrSeatmap tag index entry s
  | .tblwrPoscfg tag index entry => Sys2Proof.Machine.execTblwrPoscfg tag index entry s
  | .tblwrRule tag index entry => Sys2Proof.Machine.execTblwrRule tag index entry s
  | .tblwrProfile tag index entry => Sys2Proof.Machine.execTblwrProfile tag index entry s
  | .tblwrRingA tag index entry => Sys2Proof.Machine.execTblwrRingA tag index entry s
  | .tblwrRingB tag index entry => Sys2Proof.Machine.execTblwrRingB tag index entry s
  | .tblwrSegcfg tag index entry => Sys2Proof.Machine.execTblwrSegcfg tag index entry s
  | .tblwrLocalcfg tag index entry => Sys2Proof.Machine.execTblwrLocalcfg tag index entry s
  | .tblwrTiming tag index entry => Sys2Proof.Machine.execTblwrTiming tag index entry s
  | .tblwrPanelcfg tag index entry => Sys2Proof.Machine.execTblwrPanelcfg tag index entry s
  | .tblwrProtect tag index entry => Sys2Proof.Machine.execTblwrProtect tag index entry s
  | .tblrd tag payload => Sys2Proof.Machine.execTblrd tag payload s
  | .posqry tag payload => Sys2Proof.Machine.execPosqry tag payload s
  | .nodereq tag payload => Sys2Proof.Machine.execNodereq tag payload s
  | .stage tag payload => Sys2Proof.Machine.execStage tag payload s
  | .commit tag payload => Sys2Proof.Machine.execCommit tag payload s
  | .nvcancel tag payload => Sys2Proof.Machine.execNvcancel tag payload s
  | .nverase tag payload => Sys2Proof.Machine.execNverase tag payload s
  | .protload tag payload => Sys2Proof.Machine.execProtload tag payload s
  | .callock tag payload => Sys2Proof.Machine.execCallock tag payload s
  | .sleepreq tag payload => Sys2Proof.Machine.execSleepreq tag payload s
  | .alertack tag payload => Sys2Proof.Machine.execAlertack tag payload s
  | .chimetst tag payload => Sys2Proof.Machine.execChimetst tag payload s
  | .paneltst tag payload => Sys2Proof.Machine.execPaneltst tag payload s
  | .clrflag tag payload => Sys2Proof.Machine.execClrflag tag payload s
  | .identq tag payload => Sys2Proof.Machine.execIdentq tag payload s
  | .softrst tag payload => Sys2Proof.Machine.execSoftrst tag payload s
  | .sendReply => Sys2Proof.Machine.execSendReply s
  | .sendAlert => Sys2Proof.Machine.execSendAlert s
  | .sendNodeans => Sys2Proof.Machine.execSendNodeans s
  | .sendWakenote => Sys2Proof.Machine.execSendWakenote s
  | .sendPosnote => Sys2Proof.Machine.execSendPosnote s
  | .sendSeatnote => Sys2Proof.Machine.execSendSeatnote s
  | .sendMirror => Sys2Proof.Machine.execSendMirror s
  | .sendComplete ign door => Sys2Proof.Machine.execSendComplete ign door s
  | .spacingExpiry g => Sys2Proof.Machine.execSpacingExpiry g s
  | .pollStart g => Sys2Proof.Machine.execPollStart g s
  | .pollSent g => Sys2Proof.Machine.execPollSent g s
  | .segmentFrame g bytes => Sys2Proof.Machine.execSegmentFrame g bytes s
  | .segmentFrameCut g => Sys2Proof.Machine.execSegmentFrameCut g s
  | .replyWindowExpiry g => Sys2Proof.Machine.execReplyWindowExpiry g s
  | .lineStuckDetect g => Sys2Proof.Machine.execLineStuckDetect g s
  | .probeExpiry g active => Sys2Proof.Machine.execProbeExpiry g active s
  | .scanIntervalExpiry => Sys2Proof.Machine.execScanIntervalExpiry s
  | .conversionComplete result ancA ancB => Sys2Proof.Machine.execConversionComplete result ancA ancB s
  | .reminderTick => Sys2Proof.Machine.execReminderTick s
  | .alertPatternTimer => Sys2Proof.Machine.execAlertPatternTimer s
  | .chimeTestQuarter => Sys2Proof.Machine.execChimeTestQuarter s
  | .chimeTestEnd => Sys2Proof.Machine.execChimeTestEnd s
  | .scanFrameStart => Sys2Proof.Machine.execScanFrameStart s
  | .commonSlot => Sys2Proof.Machine.execCommonSlot s
  | .dutyEnd => Sys2Proof.Machine.execDutyEnd s
  | .flashPhase => Sys2Proof.Machine.execFlashPhase s
  | .panelTestExpiry => Sys2Proof.Machine.execPanelTestExpiry s
  | .rundownExpiry => Sys2Proof.Machine.execRundownExpiry s
  | .watchIntervalExpiry => Sys2Proof.Machine.execWatchIntervalExpiry s
  | .dwellTick => Sys2Proof.Machine.execDwellTick s
  | .alertRepeatExpiry => Sys2Proof.Machine.execAlertRepeatExpiry s
  | .watchElapsedTick => Sys2Proof.Machine.execWatchElapsedTick s
  | .commitComplete same => Sys2Proof.Machine.execCommitComplete same s
  | .eraseComplete => Sys2Proof.Machine.execEraseComplete s
  | .lockComplete => Sys2Proof.Machine.execLockComplete s
  | .frameSync byte => Sys2Proof.Machine.execFrameSync byte s
  | .segmentFrameBegin g => Sys2Proof.Machine.execSegmentFrameBegin g s
  | .segmentLineIdle g => Sys2Proof.Machine.execSegmentLineIdle g s

end Sys2Proof.Machine
end

