-- ==== Sys2Proof/Safety.lean ====
section
/-! DEFINITION. The terms in which claims about the part are made: when a frame is taken, what every step keeps, and the
ranges the spec gives. -/

namespace Sys2Proof.Machine

/-! ### Frames -/

/-- A frame that needs a reply reaches its owner: it is complete, a place is free, the load is over (R190). -/
abbrev State.takes (s : State) : Prop :=
  s.tkp.rx = .inFrame ∧ s.tkp.placesTaken < Config.replyPlaces ∧ s.pmg.power ≠ .starting

/-- The state after a frame is taken and its place filled with a REPLY (R189, R191). -/
def State.answered (s : State) (tag kind : Byte) (st : Status) (body : List Byte) : State :=
  { s with tkp := { s.tkp with
      rx := .hunt
      replies := s.tkp.replies ++ [{ tag := tag, kind := kind, status := st, body := body }] } }

/-- The state after a store command is accepted and its place kept reserved (R191). -/
def State.reserved (s : State) (tag kind : Byte) (op : StoreOp) : State :=
  { s with
    tkp := { s.tkp with rx := .hunt, reserved := some { tag := tag, kind := kind } }
    cfs := { s.cfs with op := .running op } }

/-- Nothing waits for the end of a step: no chime event on its way, no empty watch (R156, R176). -/
abbrev State.settled (s : State) : Prop := s.toChime = [] ∧ (s.pmg.power = .parkWatch → s.pmg.watchSet ≠ [])

/-- The kind and the tag of a frame that needs a reply (R190, section 10.10); none for every other command. -/
def replyFrame : Instr → Option (Byte × Byte)
  | .tblwrNode tag _ => some (0x02, tag)
  | .tblwrSeatmap tag _ _ => some (0x02, tag)
  | .tblwrPoscfg tag _ _ => some (0x02, tag)
  | .tblwrRule tag _ _ => some (0x02, tag)
  | .tblwrProfile tag _ _ => some (0x02, tag)
  | .tblwrRingA tag _ _ => some (0x02, tag)
  | .tblwrRingB tag _ _ => some (0x02, tag)
  | .tblwrSegcfg tag _ _ => some (0x02, tag)
  | .tblwrLocalcfg tag _ _ => some (0x02, tag)
  | .tblwrTiming tag _ _ => some (0x02, tag)
  | .tblwrPanelcfg tag _ _ => some (0x02, tag)
  | .tblwrProtect tag _ _ => some (0x02, tag)
  | .tblrd tag _ => some (0x03, tag)
  | .posqry tag _ => some (0x04, tag)
  | .nodereq tag _ => some (0x05, tag)
  | .stage tag _ => some (0x06, tag)
  | .commit tag _ => some (0x07, tag)
  | .nvcancel tag _ => some (0x08, tag)
  | .nverase tag _ => some (0x09, tag)
  | .protload tag _ => some (0x0A, tag)
  | .callock tag _ => some (0x0B, tag)
  | .sleepreq tag _ => some (0x0C, tag)
  | .alertack tag _ => some (0x0D, tag)
  | .chimetst tag _ => some (0x0E, tag)
  | .paneltst tag _ => some (0x0F, tag)
  | .clrflag tag _ => some (0x10, tag)
  | .identq tag _ => some (0x11, tag)
  | .softrst tag _ => some (0x12, tag)
  | _ => none

/-- The payload of a frame fits its kind (R190 test 5, section 10.10). -/
def lengthFits : Instr → Bool
  | .tblwrNode _ p => 2 ≤ p.length
  | .tblrd _ p => p.length = 2
  | .posqry _ p => p.length = 1
  | .nodereq _ p => 2 ≤ p.length && p.length ≤ 9
  | .stage _ p => p.length = 2
  | .commit _ p => p.length = 0
  | .nvcancel _ p => p.length = 0
  | .nverase _ p => p.length = 1
  | .protload _ p => p.length = 0
  | .callock _ p => p.length = 0
  | .sleepreq _ p => p.length = 0
  | .alertack _ p => p.length = 0
  | .chimetst _ p => p.length = 0
  | .paneltst _ p => p.length = 0
  | .clrflag _ p => p.length = 2
  | .identq _ p => p.length = 0
  | .softrst _ p => p.length = 0
  | _ => true

/-- The segment started at an entry to RUN: an enabled one RUNNING, pointer at head, spacing expired (R81, R105). That
the pointer of one whose enable is clear goes to head at wake too is the model's choice (log entry 35). -/
def Segment.started (g : Segment) : Segment :=
  { g with state := if g.cfg.enable then .running else .stopped, pointer := g.cfg.head, headMoved := false,
           spacing := none }

/-- A full scan started with a fresh copy of LOCALCFG and the interval timer (R69, R70). -/
def Lsu.scanning (l : Lsu) : Lsu :=
  { l with copy := some l.cfg, remaining := scanChannels l.cfg.fitted0 l.cfg.fitted1, followUp := false,
           timer := some l.cfg.interval }

/-- The state after an entry to RUN that starts every block, PMG left at `m` (R171, R184, section 9.7). -/
def State.started (s : State) (m : Pmg) : State :=
  { s with
    pmg := { m with power := .run, wakenoteOwed := true,
                    runDown := if m.ignition then none else some m.timing.runDown }
    sga := s.sga.started
    sgb := s.sgb.started
    tick := some (tickPeriod m.timing.tick)
    pnd := { s.pnd with scanning := true, flash := .a, copy := some s.pnd.cfg, frameTest := s.pnd.test, common := 0,
                        pcom := none, plin := 0 }
    lsu := s.lsu.scanning }

/-- A suspended operation restarts, any other state stands (R212). -/
def OpState.restarted : OpState → OpState
  | .suspended op => .running op
  | op => op

/-- The state after a wake, PMG left at `m` with its cause added (R184, R204, R212). -/
def State.woken (s : State) (m : Pmg) : State :=
  { s.started m with
    tkp := { s.tkp with rx := .waitIdle }
    cfs := { s.cfs with op := s.cfs.op.restarted } }

/-- The stopped state of LSU and of the panel outside RUN and PARK_WATCH (R69, R166). -/
abbrev State.resting (s : State) : Prop := s.lsu.remaining = [] ∧ s.pnd.scanning = false

/-- A position after RME's handling at it: the reminder fields, and notice owed set when the state is another (R151). -/
def Position.reminded (r : Position) (rem : Reminder) : Position :=
  { r with rem := rem, owed := r.owed || rem.state ≠ r.rem.state }

/-- PMG after its watch has ended (R182, R183). -/
def Pmg.unwatched (m : Pmg) : Pmg :=
  { m with sub := none, watchSet := [], dwell := 0, dwellTimer := false, alertRepeat := none, alertNumber := 0,
           alertOwed := false, elapsed := 0, elapsedTimer := false, interval := none }

/-- A segment with its work in flight abandoned (R105). -/
def Segment.abandoned (g : Segment) : Segment :=
  { g with state := .stopped, poll := none, sending := none, spacing := none, window := none, probe := false,
           records := [], reception := .none, pass := none }

/-- An operation in flight is suspended, any other state stands (R212). -/
def OpState.stopped : OpState → OpState
  | .running op => .suspended op
  | op => op

/-- The state after entry to SLEEP (R183, section 9.7). -/
def State.asleep (s : State) : State :=
  { s with
    tkp := { s.tkp with rx := .off, tx := s.tkp.tx.map Sending.forgetRecord }
    sga := s.sga.abandoned
    sgb := s.sgb.abandoned
    lsu := { s.lsu with remaining := [], followUp := false, timer := none }
    tick := none
    chd := Chd.reset
    pnd := { s.pnd with test := false, scanning := false, copy := none, frameTest := false, common := 8, pcom := none,
                        plin := 0 }
    pmg := { s.pmg.unwatched with power := .sleep, runDown := none, sleepReq := false }
    cfs := { s.cfs with op := s.cfs.op.stopped } }

/-- A segment after its poll has ended: the SENT record answered (R92, R101). -/
def Segment.pollOver (g : Segment) (st : AnswerStatus) (body : List Byte) : Segment :=
  { g with
    poll := none
    sending := none
    window := none
    pass := g.pass.filter fun w => w.next.isSome
    records := g.records.map fun r =>
      if r.state = .sent then { r with state := .answered st body (g.records.countP PassRecord.isAnswered) } else r }

/-- A QUEUED record of a segment has been answered with a status and an empty body, every other record stands (R96,
R98, R102). -/
def queuedAnswered (st : AnswerStatus) (pick : PassRecord → Bool) (before after : List PassRecord) : Prop :=
  List.Forall₂ (fun r r' => if r.state = .queued ∧ pick r then ∃ n, r' = { r with state := .answered st [] n } else r' = r)
    before after

/-- The entry bytes of a TBLWR as one command (R193): the row of table `t`. -/
def writeOf (t : TableId) (tag : Byte) (index : Nat) (entry : List Byte) : Instr :=
  tblwrCommand tag (byte t.id :: byte index :: entry)

/-- The record of position `p` after a block: OCE's handling, then RME's when presence, class or buckle changed
(R24, R137). -/
def State.blockTaken (s : State) (p : Pos) (src : Source) (b : Block) : Position :=
  let old := s.positions[p]
  let new := old.takeBlock s.poscfg[p] s.rules p src b
  new.reminded
    (if new.presence = old.presence ∧ new.cls = old.cls ∧ new.buckle = old.buckle then old.rem
      else (evaluate { s.remInputs p with presence := new.presence, cls := new.cls, buckle := new.buckle } old.rem).1)

/-- The record of position `p` after its slot went LOST (R10): class, F, band, footprint, buckle, anchors, tag, seed due
and source kept, armed map, pending candidate and buckle candidate gone, notice owed set, the reminder evaluated. -/
def State.lostPosition (s : State) (p : Pos) : Position :=
  { s.positions[p] with
    presence := .sourceLost, armed := Vector.replicate 24 0, pending := none, candidate := none
    owed := true : Position }.reminded
    (evaluate { s.remInputs p with presence := .sourceLost } s.positions[p].rem).1

/-- Every glyph follows its position's reminder from `s` to `t`: written where the state is another, kept where it is
not (R150). -/
def State.glyphsFollow (s t : State) : Prop :=
  ∀ p : Pos, t.pnd.image[p] =
    if t.positions[p].rem.state = s.positions[p].rem.state then s.pnd.image[p] else t.positions[p].rem.state.glyph

/-- The grant that a release gives: the alert, else the test, else the lowest position, else none (R157). -/
def Chd.grantsNext (c : Chd) : Grant → Prop
  | .alert => c.alert.isSome
  | .test => c.alert = none ∧ c.test.isSome
  | .pos p => c.alert = none ∧ c.test = none ∧ c.requests[p].isSome ∧ ∀ q : Pos, q < p → c.requests[q] = none
  | .none => c.alert = none ∧ c.test = none ∧ ∀ q : Pos, c.requests[q] = none

/-- Rule `i` is eligible for a block at `p` and every condition of R46 holds (R53, R54). -/
def ruleHits (rules : Rules) (snap : Vector Nat 24) (p : Pos) (r : Position) (i : RuleIx) : Prop :=
  rules[i].valid ∧ rules[i].positions.getLsbD p.val ∧ (∀ j, rules[i].pred = some j → snap[j] ≠ 0) ∧
    rules[i].bands.getLsbD r.band.code ∧ rules[i].fpMin ≤ r.footprint ∧ r.footprint ≤ rules[i].fpMax ∧
      rules[i].buckles.getLsbD r.buckle.code ∧ rules[i].tags.getLsbD r.tag.code ∧
        (rules[i].condA = .any ∨ (rules[i].condA = .engaged ↔ r.anchorA)) ∧
          (rules[i].condB = .any ∨ (rules[i].condB = .engaged ↔ r.anchorB))

/-- Rule `i` is a matching rule of the block: no class rule matches at a lower index (R54). -/
def ruleMatches (rules : Rules) (snap : Vector Nat 24) (p : Pos) (r : Position) (i : RuleIx) : Prop :=
  ruleHits rules snap p r i ∧ ∀ j : RuleIx, j < i → ruleHits rules snap p r j → rules[j].outcome = none

/-- A clamped quantity (section Numbers of 00_scope.md). -/
def within (lo hi n : Nat) : Nat := max lo (min hi n)

/-! ### What every step keeps -/

/-- The FIFOs and the records stay within their places (R99, R191, R203). -/
abbrev State.capacities (s : State) : Prop :=
  s.tkp.placesTaken ≤ 8 ∧ s.tkp.mirror.length ≤ 8 ∧ s.sga.records.length ≤ 3 ∧ s.sgb.records.length ≤ 3

/-- At most one record is SENT, and only while a poll to its slot is outstanding (R99). -/
abbrev Segment.sentWhole (g : Segment) : Prop :=
  g.records.countP (fun r => r.state = .sent) ≤ 1 ∧
    ∀ r ∈ g.records, r.state = .sent → g.poll.map (·.slot) = some r.slot

/-- Both segments keep the law of SENT records (R99). -/
abbrev State.sentWhole (s : State) : Prop := s.sga.sentWhole ∧ s.sgb.sentWhole

/-- The watch set is filled in PARK_WATCH and empty outside it, holds a position once, and the sub-state stands in
PARK_WATCH alone (R168, R176). -/
abbrev State.watchWhole (s : State) : Prop :=
  (s.pmg.power = .parkWatch ↔ s.pmg.watchSet ≠ []) ∧ (s.pmg.power = .parkWatch ↔ s.pmg.sub.isSome) ∧
    s.pmg.watchSet.Nodup ∧ s.toChime = []

/-- The ignition is on in RUN alone, the run-down runs only in RUN with it off, and with it off every reminder is OFF
(R154, R169, R172). -/
abbrev State.ignitionWhole (s : State) : Prop :=
  (s.pmg.power ≠ .run → s.pmg.ignition = false) ∧
    (s.pmg.runDown.isSome → s.pmg.power = .run ∧ s.pmg.ignition = false) ∧
      (s.pmg.ignition = false → ∀ p : Pos, s.positions[p].rem.state = .off)

/-- Each image entry holds the glyph of its position's reminder state (R150). -/
abbrev State.panelWhole (s : State) : Prop := ∀ p : Pos, s.pnd.image[p] = s.positions[p].rem.state.glyph

/-- The grantee is requesting, the alert holds the grant while it stands, and the grant is none only when nothing
stands (R157, R158). -/
abbrev Chd.whole (c : Chd) : Prop :=
  (c.grant = .alert ↔ c.alert.isSome) ∧ (c.grant = .test → c.test.isSome) ∧
    (∀ p : Pos, c.grant = .pos p → c.requests[p].isSome) ∧
      (c.grant = .none → c.test = none ∧ ∀ p : Pos, c.requests[p] = none)

/-- A position's request stands exactly while its reminder is AUDIBLE in phase ON (R149), with the law of the
ignition, under which entry to SLEEP ends no position's request. -/
abbrev State.requestsWhole (s : State) : Prop :=
  s.toChime = [] ∧ s.ignitionWhole ∧ ∀ p : Pos, s.chd.requests[p].isSome = s.positions[p].rem.sounding

/-- No two valid entries share a key or a position (R18). -/
abbrev seatsUnique (t : Vector SeatMapEntry 24) : Prop :=
  ∀ i j : Fin 24, t[i].valid → t[j].valid → i ≠ j →
    ¬(t[i].slot = t[j].slot ∧ t[i].seat = t[j].seat) ∧ t[i].pos ≠ t[j].pos

/-- No two valid entries share a serial (R110). -/
abbrev serialsUnique (t : Vector NodeEntry 16) : Prop :=
  ∀ i j : Fin 16, t[i].valid → t[j].valid → i ≠ j → t[i].serial ≠ t[j].serial

/-- SEATMAP and NODE hold no duplicates (R18, R110). -/
abbrev State.mapsWhole (s : State) : Prop := seatsUnique s.seatmap ∧ serialsUnique s.node

/-- An entry with valid clear is in the invalid form (R47). -/
abbrev RuleEntry.canonical (e : RuleEntry) : Prop := e.valid = false → e = RuleEntry.invalid

/-- Every chain of a valid rule holds at most 4 rules (R49), in the live table; live, staged and stored rules with valid
clear are in the invalid form (R47). -/
abbrev State.rulesWhole (s : State) : Prop :=
  (∀ i : RuleIx, s.rules[i].valid → (chainOf s.rules 24 i).length ≤ 4) ∧
    (∀ i : RuleIx, s.rules[i].canonical) ∧ (∀ i e, s.cfs.staging = some (.rule i e) → e.canonical) ∧
      ∀ i : RuleIx, ∀ e ∈ s.cfs.store.rule[i], e.canonical

/-- The laws of a POSCFG entry: the threshold order and the range of the gain (R20, R21). -/
abbrev PosCfg.lawful (c : PosCfg) : Prop :=
  c.tObj < c.tSmall ∧ c.tSmall < c.tAdult ∧ c.hyst < c.tObj ∧ 32 ≤ c.gain ∧ c.gain ≤ 127

/-- Live, staged and stored POSCFG entries are lawful, and every position's F lies in 0..16240 and its footprint in 0..8
(R2, R20, R21, R31). -/
abbrev State.loadsWhole (s : State) : Prop :=
  (∀ p : Pos, s.poscfg[p].lawful) ∧ (∀ i c, s.cfs.staging = some (.poscfg i c) → c.lawful) ∧
    (∀ i : Fin 16, ∀ c ∈ s.cfs.store.poscfg[i], c.lawful) ∧
      ∀ p : Pos, s.positions[p].load ≤ 16240 ∧ s.positions[p].footprint ≤ 8

/-- A position without a seat has no source and holds nothing of one, and a lost one keeps no rule armed and no
candidate (R3, R10). -/
abbrev Position.whole (r : Position) : Prop :=
  (r.presence = .noSeat ↔ r.source = none) ∧
    (r.presence = .noSeat → r.cls = .undetermined ∧ r.buckle = .opened ∧ r.load = 0 ∧ r.rem.state = .off) ∧
      (r.presence = .noSeat ∨ r.presence = .sourceLost →
        r.armed = Vector.replicate 24 0 ∧ r.pending = none ∧ r.candidate = none)

/-- Every position record is whole (R3, R10). -/
abbrev State.positionsWhole (s : State) : Prop := ∀ p : Pos, s.positions[p].whole

/-- A pending count lies from 1 to one less than its candidate's required count (R64). -/
abbrev State.pendingWhole (s : State) : Prop :=
  ∀ p : Pos, ∀ q ∈ s.positions[p].pending, 1 ≤ q.count ∧ q.count < requiredCount s.poscfg[p] q.cls

/-- Only a valid ARM rule is armed, with at most its own window left (R53, R55, R57). -/
abbrev State.armedWhole (s : State) : Prop :=
  ∀ (p : Pos) (i : RuleIx), s.positions[p].armed[i] ≠ 0 →
    s.rules[i].valid ∧ s.rules[i].outcome = none ∧ s.positions[p].armed[i] ≤ s.rules[i].window

/-- The fields of a slot record that its state gives or withholds (R112). -/
abbrev SlotRec.whole (r : SlotRec) : Prop :=
  (r.state = .empty ↔ r.serial = none) ∧ (r.state = .empty ↔ r.lastSeg = none) ∧
    (r.state = .empty → r.miss = 0 ∧ r.lost = 0) ∧ (r.state = .empty ∨ r.state = .refused → r.lastSeq = none)

/-- Every slot record is whole (R112). -/
abbrev State.slotsWhole (s : State) : Prop := ∀ i : Slot, s.slots[i].whole

/-- A poll is outstanding only on a RUNNING segment, and it sends its POLL or runs its reply window, not both (R82, R88,
R91). -/
abbrev Segment.pollWhole (g : Segment) : Prop :=
  (g.poll.isSome → g.state = .running) ∧ (g.sending.isSome ∨ g.window.isSome → g.poll.isSome) ∧
    (g.sending = none ∨ g.window = none)

/-- Both segments keep the law of the poll, and none is outstanding in STARTING and SLEEP (R82, R105). -/
abbrev State.pollsWhole (s : State) : Prop :=
  ∀ g : Seg, (s.seg g).pollWhole ∧ (s.pmg.power = .starting ∨ s.pmg.power = .sleep → (s.seg g).poll = none)

end Sys2Proof.Machine
end

