-- ==== Sys2Proof/Certificates/Slice0/Obligations.lean ====
section
/-! DEFINITION. The statements for the provers, in the terms of Sys2Proof/Safety.lean. Every completion statement gives
the whole next state, so the fields it does not name are unchanged. -/

open Sys2Proof Sys2Proof.Machine

/-! ### The queue and the resets -/

/-- A step runs the command at the front of the queue over the queue's rest. The queue of waiting commands is the
model's own (log entry 2). -/
def Obligations.StepRunsFrontCommand : Prop :=
  ∀ (s : State) (c : Instr) (cs : List Instr), s.pending = c :: cs → step s = exec c { s with pending := cs }

/-- Hard reset from any state: every block at its hard reset values. Ignition, door, flash phase and slot counter while
STARTING are the model's choice (log entry 6) and not stated; that the pointers stand at the loaded heads from this step
on is its choice too (log entry 7). -/
def Obligations.HardResetValues : Prop :=
  ∀ s : State, ∃ t : State, exec .hardReset s = .next t ∧
    (∀ p : Pos, t.positions[p] = Position.reset) ∧ (∀ i : Slot, t.slots[i] = SlotRec.reset) ∧ t.chd = Chd.reset ∧
      t.tkp = Tkp.reset ∧ t.tick = none ∧
        (∀ g : Seg, (t.seg g).state = .stopped ∧ (t.seg g).pointer = (t.seg g).cfg.head ∧ (t.seg g).poll = none ∧
          (t.seg g).spacing = none ∧ (t.seg g).window = none ∧ (t.seg g).probe = false ∧ (t.seg g).records = [] ∧
            (t.seg g).badCheck = false ∧ (t.seg g).unsolicited = false ∧ (t.seg g).lineStuck = false) ∧
          (t.lsu.remaining = [] ∧ (∀ i : Fin 19, t.lsu.results[i] = 0) ∧ t.lsu.seq0 = 0 ∧ t.lsu.seq1 = 0 ∧
            t.lsu.low = false ∧ t.lsu.lastSupply = 0 ∧ t.lsu.supplyLowFlag = false ∧ t.lsu.copy = none ∧
              t.lsu.timer = none) ∧
            ((∀ p : Pos, t.pnd.image[p] = .dark) ∧ t.pnd.scanning = false ∧ t.pnd.test = false ∧ t.pnd.pcom = none ∧
              t.pnd.plin = 0) ∧
              (t.pmg.power = .starting ∧ t.pmg.sub = none ∧ t.pmg.moving = false ∧ t.pmg.locked = false ∧
                t.pmg.seen = false ∧ t.pmg.runDown = none ∧ t.pmg.sleepReq = false ∧ t.pmg.watchSet = [] ∧
                  t.pmg.dwell = 0 ∧ t.pmg.dwellTimer = false ∧ t.pmg.alertRepeat = none ∧ t.pmg.alertNumber = 0 ∧
                    t.pmg.alertOwed = false ∧ t.pmg.elapsed = 0 ∧ t.pmg.elapsedTimer = false ∧
                      t.pmg.interval = none ∧ t.pmg.causes = { Causes.empty with reset := true } ∧
                        t.pmg.wakenoteOwed = false) ∧
                t.cfs.staging = none ∧ t.cfs.op = .idle ∧ t.cfs.programFail = false

/-- The load of a hard reset with no store operation in flight: tables, protection, lock and erase summary. The
records of NODE, SEATMAP and RULE that conflict are left to `HardResetLoadKeepsLaws`. A hard reset ends a store
operation in flight or suspended: the commit's target or the erase's region erased, an interrupted lock clear. That
the load's copy happens in the step of HARD_RESET is the model's choice (log entry 7). -/
def Obligations.HardResetLoads : Prop :=
  (∀ s : State, s.cfs.op = .idle → ∃ t : State, exec .hardReset s = .next t ∧ t.cfs.store = s.cfs.store ∧
     (∀ i : Fin 16, t.poscfg[i] = (s.cfs.store.poscfg[i]).getD PosCfg.default) ∧
       (∀ i : Fin 4, t.profiles[i] = (s.cfs.store.profile[i]).getD ProfileEntry.default) ∧
         (∀ i : RingIx, t.sga.ring[i] = (s.cfs.store.ringA[i]).getD RingEntry.invalid ∧
           t.sgb.ring[i] = (s.cfs.store.ringB[i]).getD RingEntry.invalid) ∧
           t.sga.cfg = (s.cfs.store.segcfg[(0 : Fin 2)]).getD SegCfg.default ∧
             t.sgb.cfg = (s.cfs.store.segcfg[(1 : Fin 2)]).getD SegCfg.default ∧
               t.lsu.cfg = s.cfs.store.localcfg.getD LocalCfg.default ∧
                 t.pmg.timing = s.cfs.store.timing.getD Timing.default ∧
                   t.pnd.cfg = s.cfs.store.panelcfg.getD PanelCfg.default ∧
                     t.cfs.live = s.cfs.store.protect.getD 0 ∧
                       (∀ r : Fin 4, t.cfs.effective.getLsbD r.val =
                         ((s.cfs.store.protect.getD 0).getLsbD r.val || (s.cfs.store.lock && r.val = 1))) ∧
                         (∀ r : Fin 4, t.cfs.summary.getLsbD r.val = s.cfs.store.regionErased r)) ∧
  (∀ s : State,
     (∀ st, s.cfs.op = .running .commit ∨ s.cfs.op = .suspended .commit → s.cfs.staging = some st →
       ∃ t, exec .hardReset s = .next t ∧ t.cfs.store = s.cfs.store.record false st) ∧
       (∀ r, s.cfs.op = .running (.erase r) ∨ s.cfs.op = .suspended (.erase r) →
         ∃ t, exec .hardReset s = .next t ∧ t.cfs.store = s.cfs.store.eraseRegion r ∧ t.cfs.store.regionErased r) ∧
         (s.cfs.op = .running .lock ∨ s.cfs.op = .suspended .lock →
           ∃ t, exec .hardReset s = .next t ∧ t.cfs.store = s.cfs.store))

/-- The load of NODE, SEATMAP and RULE: every entry is the stored one or invalid, an erased record is invalid, no valid
entry conflicts with another, and a stored NODE or SEATMAP entry that conflicts with no valid one stored before it, and
a stored RULE entry without a predecessor in a store whose predecessors are lower, is loaded. That the load's copy
happens in the step of HARD_RESET is the model's choice (log entry 7). -/
def Obligations.HardResetLoadKeepsLaws : Prop :=
  ∀ s : State, s.cfs.op = .idle → (∀ i : RuleIx, ∀ e ∈ s.cfs.store.rule[i], e.canonical) →
    ∃ t : State, exec .hardReset s = .next t ∧
      (∀ i : Fin 16, t.node[i] = NodeEntry.invalid ∨ s.cfs.store.node[i] = some t.node[i]) ∧
        (∀ i : Fin 24, t.seatmap[i] = SeatMapEntry.invalid ∨ s.cfs.store.seatmap[i] = some t.seatmap[i]) ∧
          (∀ i : RuleIx, t.rules[i] = RuleEntry.invalid ∨ s.cfs.store.rule[i] = some t.rules[i]) ∧
            (serialsUnique t.node ∧ seatsUnique t.seatmap ∧
              ∀ i : RuleIx, t.rules[i].valid → (chainOf t.rules 24 i).length ≤ 4) ∧
              (∀ (i : Fin 16) (e : NodeEntry), s.cfs.store.node[i] = some e →
                (∀ (j : Fin 16) (f : NodeEntry), j < i → s.cfs.store.node[j] = some f → f.valid = true →
                  f.serial ≠ e.serial) → t.node[i] = e) ∧
                (∀ (i : Fin 24) (e : SeatMapEntry), s.cfs.store.seatmap[i] = some e →
                  (∀ (j : Fin 24) (f : SeatMapEntry), j < i → s.cfs.store.seatmap[j] = some f → f.valid = true →
                    ¬(f.slot = e.slot ∧ f.seat = e.seat) ∧ f.pos ≠ e.pos) → t.seatmap[i] = e) ∧
                  ∀ (i : RuleIx) (e : RuleEntry), s.cfs.store.rule[i] = some e → e.pred = none →
                    (∀ (j k : RuleIx) (f : RuleEntry), s.cfs.store.rule[j] = some f → f.pred = some k → k < j) →
                      t.rules[i] = e

/-- The load completes: RUN with the levels of IGN and DOOR, WAKENOTE owed, run-down when the ignition is off, enabled
segments RUNNING at head, the tick timer, a scan, the panel. The levels are operands of the event and the copy was made
at the reset, by the model's choice (log entries 8 and 7); the flag of a moved head and the panel's frame that drives
nothing yet are the model's too (log entries 17 and 29). -/
def Obligations.LoadCompleteEntersRun : Prop :=
  ∀ (s : State) (ign door : Bool), s.pmg.power = .starting → s.resting →
    exec (.loadComplete ign door) s = .next (s.started { s.pmg with ignition := ign, doorOpen := door })

/-! ### Ignition, door, wake and run-down -/

/-- The ignition going off in RUN: moving false, the run-down started, every reminder OFF, every position's request
withdrawn, every glyph DARK. The ignition coming on: in RUN it stops the run-down and drops a pending sleep request, in
PARK_WATCH it ends the watch, where a watch scan in progress completes before the new scan starts, in SLEEP it wakes;
every reminder is evaluated with the ignition on and its glyph follows it. In STARTING no change is taken, and a level
that is not new is no change (log entry 1). The order in which CHD takes the events of several positions is free (log
entry 4) and not stated. The level is an operand by the model's choice (log entry 8); at the entries to RUN the flag of
a moved head, the scan start that waits and the panel's frame that drives nothing yet are the model's (log entries 17,
18 and 29), and at the wake so is the pointer, put at head, of a segment whose enable is clear (log entry 35). That no
chime event is on its way between steps is about the model's own field (log entry 21), and `StepKeepsPowerLaws` states
it. -/
def Obligations.IgnitionChanges : Prop :=
  (∀ s : State, s.pmg.power = .run → s.pmg.ignition = true → s.panelWhole → s.toChime = [] →
     (∀ p : Pos, s.chd.requests[p].isSome = s.positions[p].rem.sounding) →
       ∃ t : State, exec (.ignitionChange false) s = .next t ∧
         t = { s with pmg := t.pmg, positions := t.positions, pnd := t.pnd, chd := t.chd, free := t.free } ∧
           t.pmg = { s.pmg with ignition := false, moving := false, runDown := some s.pmg.timing.runDown } ∧
             (∀ p : Pos, t.positions[p] = s.positions[p].reminded
               (if s.positions[p].rem.state = .off then s.positions[p].rem else Reminder.reset)) ∧
               t.pnd = { s.pnd with image := t.pnd.image } ∧
                 (∀ p : Pos, t.pnd.image[p] = .dark ∧ t.chd.requests[p] = none) ∧
                   t.chd.alert = s.chd.alert ∧ t.chd.test = s.chd.test) ∧
  (∀ s : State, s.pmg.ignition = false → s.toChime = [] →
     (s.pmg.power = .run → ∃ t : State, exec (.ignitionChange true) s = .next t ∧ s.glyphsFollow t ∧
       t = { s with pmg := { s.pmg with ignition := true, runDown := none, sleepReq := false }, positions := t.positions
                    pnd := { s.pnd with image := t.pnd.image }, chd := t.chd, free := t.free } ∧
         ∀ p : Pos, t.positions[p] =
           s.positions[p].reminded (evaluate { s.remInputs p with ignition := true } s.positions[p].rem).1) ∧
       (s.pmg.power = .parkWatch → s.pnd.scanning = true →
         ∃ t : State, exec (.ignitionChange true) s = .next t ∧ s.glyphsFollow t ∧
           t = { s with pmg := { s.pmg.unwatched with power := .run, ignition := true, runDown := none }
                        sga := { s.sga with
                          pass := none, pointer := s.sga.cfg.head, headMoved := false
                          state := if s.sga.state = .idle then .running else s.sga.state }
                        sgb := { s.sgb with
                          pass := none, pointer := s.sgb.cfg.head, headMoved := false
                          state := if s.sgb.state = .idle then .running else s.sgb.state }
                        tick := some (tickPeriod s.pmg.timing.tick), positions := t.positions
                        lsu := if s.lsu.remaining = [] then s.lsu.scanning else { s.lsu with followUp := true }
                        pnd := { s.pnd with flash := .a, image := t.pnd.image }, chd := t.chd, free := t.free } ∧
             t.chd.alert = none ∧ t.chd.test = s.chd.test ∧
               ∀ p : Pos, t.positions[p] =
                 s.positions[p].reminded (evaluate { s.remInputs p with ignition := true } s.positions[p].rem).1) ∧
         (s.pmg.power = .sleep → s.resting → ∃ t u : State, exec (.ignitionChange true) s = .next t ∧
           s.glyphsFollow t ∧ u = s.woken { s.pmg with ignition := true, causes := { s.pmg.causes with ign := true } } ∧
             t = { u with positions := t.positions, pnd := { u.pnd with image := t.pnd.image }, chd := t.chd
                          free := t.free } ∧
               ∀ p : Pos, t.positions[p] =
                 s.positions[p].reminded (evaluate { s.remInputs p with ignition := true } s.positions[p].rem).1)) ∧
  ∀ (s : State) (on : Bool), s.toChime = [] → s.pmg.power = .starting ∨ on = s.pmg.ignition →
    exec (.ignitionChange on) s = .next s

/-- A door change that does not wake the part: the door state in RUN, PARK_WATCH and SLEEP, the dwell in PARK_WATCH. The
wake events of TRUNK, DOOR and BUCKLE in SLEEP: an enabled source adds its cause and enters RUN, a disabled one does not
wake the part. That STARTING takes no change and that the level and the front position are operands is the model's
choice (log entries 1 and 8); at a wake the flag of a moved head, the panel's frame that drives nothing yet and the
pointer, put at head, of a segment whose enable is clear are the model's (log entries 17, 29 and 35). -/
def Obligations.DoorAndWakes : Prop :=
  (∀ (s : State) (ajar : Bool), ajar ≠ s.pmg.doorOpen →
     (s.pmg.power = .run → exec (.doorChange ajar) s = .next { s with pmg := { s.pmg with doorOpen := ajar } }) ∧
       (s.pmg.power = .parkWatch → exec (.doorChange ajar) s = .next { s with pmg := { s.pmg with
         doorOpen := ajar
         dwell := if s.pmg.locked && !ajar then s.pmg.dwell else 0
         dwellTimer := s.pmg.locked && !ajar } }) ∧
         (s.pmg.power = .sleep → (ajar && s.pmg.timing.wakeDoor) = false →
           exec (.doorChange ajar) s = .next { s with pmg := { s.pmg with doorOpen := ajar } }) ∧
           (s.pmg.power = .starting → exec (.doorChange ajar) s = .next s)) ∧
  (∀ (s : State) (front : Fin 2), s.pmg.power = .sleep → s.resting →
     (s.pmg.timing.wakeTrunk = true → exec .trunkWake s = .next
       (s.woken { s.pmg with causes := { s.pmg.causes with trunk := true } })) ∧
       (s.pmg.timing.wakeTrunk = false → exec .trunkWake s = .next s) ∧
         (s.pmg.timing.wakeDoor = true → s.pmg.doorOpen = false → exec (.doorChange true) s = .next
           (s.woken { s.pmg with doorOpen := true, causes := { s.pmg.causes with door := true } })) ∧
           (s.pmg.timing.wakeBuckle = true → s.lsu.cfg.fitted front = true → exec (.buckleWake front) s = .next
             (s.woken { s.pmg with causes := { s.pmg.causes with buckle := true } })) ∧
             (s.pmg.timing.wakeBuckle = false ∨ s.lsu.cfg.fitted front = false →
               exec (.buckleWake front) s = .next s))

/-- The run-down expiry in RUN forms the watch set from the positions that R174 names: PARK_WATCH when it holds one,
SLEEP when it is empty. What the model adds in these next states: at both entries a scan start that waits is dropped
(log entry 18); at entry to SLEEP the stopped panel's slot counter is 8 and its flash phase kept (log entry 6), a
segment frame in reception is given up (log entry 15), and a NODEANS being sent removes no record at its completion (log
entry 24). -/
def Obligations.RundownExpiry : Prop :=
  ∀ s : State, s.pmg.power = .run → s.pmg.runDown.isSome →
    ∃ w : List Pos, w.Pairwise (· < ·) ∧
      (∀ p : Pos, p ∈ w ↔ (s.positions[p].presence = .live ∨ s.positions[p].presence = .held) ∧
        (s.positions[p].cls = .childSeatOccupied ∨ s.positions[p].cls = .smallOccupant) ∧
          s.poscfg[p].watchEligible = true) ∧
        (w = [] → exec .rundownExpiry s = .next s.asleep) ∧
          (w ≠ [] → exec .rundownExpiry s = .next { s with
            lsu := { s.lsu with followUp := false, timer := none }
            tick := none
            pmg := { s.pmg.unwatched with
              power := .parkWatch, sub := some .watching, watchSet := w, runDown := none, sleepReq := false
              dwellTimer := s.pmg.locked && !s.pmg.doorOpen, elapsedTimer := true
              interval := some s.pmg.timing.watchInterval } })

/-! ### The trunk receiver -/

/-- The receiver's events: the sync byte, the two abandonments, the failed check, hunting after wake. -/
def Obligations.ReceiverEvents : Prop :=
  ∀ (s : State) (b l : Byte),
    (s.tkp.rx = .hunt → exec (.frameSync 0xA5) s = .next { s with tkp := { s.tkp with rx := .inFrame } }) ∧
      (s.tkp.rx = .hunt → b ≠ 0xA5 → exec (.frameSync b) s = .next s) ∧
        (s.tkp.rx = .inFrame → exec .frameGapAbandon s = .next { s with tkp := { s.tkp with
          rx := .hunt, flags := { s.tkp.flags with badFrame := true } } }) ∧
          (s.tkp.rx = .inFrame → 48 < l.toNat → exec (.lengthAbandon l) s = .next { s with tkp := { s.tkp with
            rx := .hunt, flags := { s.tkp.flags with badFrame := true } } }) ∧
            (s.tkp.rx = .inFrame → exec .trunkCheckFail s = .next { s with tkp := { s.tkp with
              rx := .hunt, flags := { s.tkp.flags with badCheck := true } } }) ∧
              (s.tkp.rx = .waitIdle → exec .rxHuntResume s = .next { s with tkp := { s.tkp with rx := .hunt } })

/-- A frame that needs a reply and finds all 8 places taken is discarded without being executed, REPLY_OVERRUN is set
and no REPLY is sent. With a place free, a frame but IDENTQ is answered STARTING in STARTING; past that test, or for
IDENTQ, a payload that does not fit its kind is answered LENGTH. A complete frame of a kind that is not inbound sets
BAD_KIND and is answered UNKNOWN in every power state, or discarded with REPLY_OVERRUN where all 8 places are taken.
That frames complete in IN_FRAME alone, and that the row TBLWR_NODE carries a TBLWR too short to name a table, is the
model's choice (log entries 9 and 10). -/
def Obligations.FrameTests : Prop :=
  (∀ (s : State) (c : Instr) (kind tag : Byte), replyFrame c = some (kind, tag) → s.tkp.rx = .inFrame → s.settled →
     8 ≤ s.tkp.placesTaken → exec c s = .next { s with tkp := { s.tkp with
       rx := .hunt, flags := { s.tkp.flags with replyOverrun := true } } }) ∧
  (∀ (s : State) (c : Instr) (kind tag : Byte), replyFrame c = some (kind, tag) → s.tkp.rx = .inFrame → s.settled →
     s.tkp.placesTaken < 8 →
       (s.pmg.power = .starting → kind ≠ 0x11 → exec c s = .next (s.answered tag kind .starting [])) ∧
         (s.pmg.power ≠ .starting ∨ kind = 0x11 → lengthFits c = false →
           exec c s = .next (s.answered tag kind .length []))) ∧
  (∀ (s : State) (kind tag : Byte), s.tkp.rx = .inFrame → kind = 0 ∨ 0x12 < kind.toNat →
     (s.tkp.placesTaken < 8 → exec (.unknownKind kind tag) s = .next
       ({ s with tkp := { s.tkp with flags := { s.tkp.flags with badKind := true } } }.answered tag kind .unknown [])) ∧
       (8 ≤ s.tkp.placesTaken → exec (.unknownKind kind tag) s = .next { s with tkp := { s.tkp with
         rx := .hunt, flags := { s.tkp.flags with badKind := true, replyOverrun := true } } }))

/-- VEHSTAT: taken in RUN and PARK_WATCH, where moving follows the frame while the ignition is on, a changed moving
evaluates every reminder and a changed lock acts on the dwell; discarded in STARTING; BAD_FRAME for a wrong length. That
the other bits of the frame's byte are ignored is deduced (log entry 19). The order in which CHD takes the events of
several positions is free (log entry 4) and not stated. -/
def Obligations.VehicleRecord : Prop :=
  ∀ (s : State) (b : Byte) (p : List Byte), s.tkp.rx = .inFrame →
    (s.pmg.power ≠ .starting → s.settled → ∃ t : State, exec (.vehstat [b]) s = .next t ∧
      t = { s with tkp := { s.tkp with rx := .hunt }, pmg := t.pmg, positions := t.positions
                   pnd := { s.pnd with image := t.pnd.image }, chd := t.chd, free := t.free } ∧
        t.pmg = { s.pmg with
          moving := b.getLsbD 0 && s.pmg.ignition, locked := b.getLsbD 1, seen := true
          dwell := if s.pmg.power = .parkWatch ∧ b.getLsbD 1 ≠ s.pmg.locked ∧ ¬(b.getLsbD 1 ∧ s.pmg.doorOpen = false)
            then 0 else s.pmg.dwell
          dwellTimer := if s.pmg.power = .parkWatch ∧ b.getLsbD 1 ≠ s.pmg.locked then b.getLsbD 1 && !s.pmg.doorOpen
            else s.pmg.dwellTimer } ∧
          ∀ q : Pos, t.positions[q] =
            if (b.getLsbD 0 && s.pmg.ignition) = s.pmg.moving then s.positions[q]
            else s.positions[q].reminded
              (evaluate { s.remInputs q with moving := b.getLsbD 0 && s.pmg.ignition } s.positions[q].rem).1) ∧
      (s.pmg.power = .starting → exec (.vehstat p) s = .next { s with tkp := { s.tkp with rx := .hunt } }) ∧
        (s.pmg.power ≠ .starting → p.length ≠ 1 → exec (.vehstat p) s = .next { s with tkp := { s.tkp with
          rx := .hunt, flags := { s.tkp.flags with badFrame := true } } })

/-! ### Table writes and reads -/

/-- The checks of R193 on a TBLWR that reaches its table: index, entry length, protection, in that order; the REPLY
carries the table id and index. A table id outside 1..12 sets BAD_TABLE. That the row TBLWR_NODE carries a TBLWR of such
an id is the model's choice (log entry 10). -/
def Obligations.TableWriteRefusals : Prop :=
  ∀ (s : State) (t : TableId) (tag index : Byte) (entry : List Byte), s.takes → s.settled →
    (t.count ≤ index.toNat → exec (writeOf t tag index.toNat entry) s = .next
      (s.answered tag 0x02 .range [byte t.id, index])) ∧
      (index.toNat < t.count → entry.length ≠ t.entrySize → exec (writeOf t tag index.toNat entry) s = .next
        (s.answered tag 0x02 .length [byte t.id, index])) ∧
        (index.toNat < t.count → entry.length = t.entrySize → s.cfs.protects t = true →
          exec (writeOf t tag index.toNat entry) s = .next (s.answered tag 0x02 .isProtected [byte t.id, index])) ∧
          ∀ id : Byte, id = 0 ∨ 12 < id.toNat → exec (.tblwrNode tag (id :: index :: entry)) s = .next
            ({ s with tkp := { s.tkp with flags := { s.tkp.flags with badTable := true } } }.answered tag 0x02 .table
              [id, index])

/-- NODE: valid clear stores the invalid form; a serial of 0 is refused RANGE, one that another valid entry holds
DUPLICATE; otherwise the entry is stored with its seat count clamped. No slot record changes. The operand is the
whole payload by the model's choice (log entry 10). -/
def Obligations.NodeWrite : Prop :=
  ∀ (s : State) (tag : Byte) (i : Fin 16) (v b3 b2 b1 b0 n m : Byte), s.takes → s.settled →
    s.cfs.protects .node = false →
      let serial := ((b3.toNat * 256 + b2.toNat) * 256 + b1.toNat) * 256 + b0.toNat
      let e : NodeEntry := if v = 0 then NodeEntry.invalid else
        { valid := true, serial := BitVec.ofNat 32 serial, seatCount := within 1 3 n.toNat, mirror := m ≠ 0 }
      let held := ∃ j : Fin 16, j ≠ i ∧ s.node[j].valid = true ∧ s.node[j].serial = e.serial
      let c := Instr.tblwrNode tag [1, byte i.val, v, b3, b2, b1, b0, n, m]
      (v ≠ 0 → serial = 0 → exec c s = .next (s.answered tag 0x02 .range [1, byte i.val])) ∧
        (v ≠ 0 → serial ≠ 0 → held → exec c s = .next (s.answered tag 0x02 .duplicate [1, byte i.val])) ∧
          (v = 0 ∨ (serial ≠ 0 ∧ ¬held) → exec c s = .next
            ({ s with node := put s.node i e }.answered tag 0x02 .ok (1 :: byte i.val :: e.bytes)))

/-- SEATMAP: the range check, the duplicate check, and the storing, which clears the position the old valid entry
named when it is not in NO_SEAT. Stated outside PARK_WATCH, where a cleared position may empty the watch set. -/
def Obligations.SeatMapWrite : Prop :=
  ∀ (s : State) (tag : Byte) (i : Fin 24) (v slot seat pos : Byte), s.takes → s.settled →
    s.cfs.protects .seatmap = false →
      let e : SeatMapEntry := if v = 0 then SeatMapEntry.invalid else
        { valid := true, slot := Fin.ofNat 16 slot.toNat, seat := Fin.ofNat 3 seat.toNat
          pos := Fin.ofNat 16 pos.toNat }
      let out := 15 < slot.toNat ∨ 2 < seat.toNat ∨ pos.toNat < 2 ∨ 15 < pos.toNat
      let held := ∃ j : Fin 24, j ≠ i ∧ s.seatmap[j].valid = true ∧
        ((s.seatmap[j].slot = e.slot ∧ s.seatmap[j].seat = e.seat) ∨ s.seatmap[j].pos = e.pos)
      let old := s.seatmap[i]
      let c := Instr.tblwrSeatmap tag (byte i.val) [v, slot, seat, pos]
      (v ≠ 0 → out → exec c s = .next (s.answered tag 0x02 .range [2, byte i.val])) ∧
        (v ≠ 0 → ¬out → held → exec c s = .next (s.answered tag 0x02 .duplicate [2, byte i.val])) ∧
          (v = 0 ∨ (¬out ∧ ¬held) → old.valid = false ∨ s.positions[old.pos].presence = .noSeat →
            exec c s = .next ({ s with seatmap := put s.seatmap i e }.answered tag 0x02 .ok
              (2 :: byte i.val :: e.bytes))) ∧
            (v = 0 ∨ (¬out ∧ ¬held) → old.valid = true → s.positions[old.pos].presence ≠ .noSeat →
              s.pmg.power ≠ .parkWatch → ∃ t : State, exec c s = .next t ∧
                t = { s with seatmap := put s.seatmap i e, positions := put s.positions old.pos Position.reset
                             pnd := { s.pnd with image := put s.pnd.image old.pos .dark }, pmg := t.pmg, chd := t.chd
                             free := t.free }.answered tag 0x02 .ok (2 :: byte i.val :: e.bytes) ∧
                  t.pmg = { s.pmg with watchSet := s.pmg.watchSet.filter fun q => q ≠ old.pos } ∧
                    (s.positions[old.pos].rem.sounding = true → t.chd.requests[old.pos] = none) ∧
                      ∀ q : Pos, q ≠ old.pos → t.chd.requests[q] = s.chd.requests[q])

/-- POSCFG: the range check, then the order check, then the storing: pending and armed cleared, seed due set, the
other occupancy fields kept, the reminder evaluated with the new profile. -/
def Obligations.PosCfgWrite : Prop :=
  ∀ (s : State) (tag : Byte) (p : Pos) (bs : List Byte) (c : PosCfg), s.takes → s.settled →
    s.cfs.protects .poscfg = false → bs.length = 24 →
      c = { offsets := Vector.ofFn fun i => Fin.ofNat 256 (u8 bs i.val), gain := within 32 127 (u8 bs 8)
            tCell := u16 bs 9, tObj := u16 bs 11, tSmall := u16 bs 13, tAdult := u16 bs 15, hyst := u16 bs 17
            shift := Fin.ofNat 4 (u8 bs 19), upConfirm := within 1 15 (u8 bs 20)
            downConfirm := within 1 15 (u8 bs 21), profile := Fin.ofNat 4 (u8 bs 22)
            watchEligible := u8 bs 23 ≠ 0 } →
        let inRange := c.tCell ≤ 1023 ∧ (1 ≤ c.tObj ∧ c.tObj ≤ 16240) ∧ (1 ≤ c.tSmall ∧ c.tSmall ≤ 16240) ∧
          (1 ≤ c.tAdult ∧ c.tAdult ≤ 16240) ∧ c.hyst ≤ 1023 ∧ u8 bs 19 ≤ 3 ∧ u8 bs 22 ≤ 3
        let ordered := c.tObj < c.tSmall ∧ c.tSmall < c.tAdult ∧ c.hyst < c.tObj
        let cmd := Instr.tblwrPoscfg tag (byte p.val) bs
        (¬inRange → exec cmd s = .next (s.answered tag 0x02 .range [3, byte p.val])) ∧
          (inRange → ¬ordered → exec cmd s = .next (s.answered tag 0x02 .order [3, byte p.val])) ∧
            (inRange → ordered → ∃ t : State, exec cmd s = .next t ∧
              t = { s with poscfg := put s.poscfg p c, positions := t.positions
                           pnd := { s.pnd with image := t.pnd.image }, chd := t.chd
                           free := t.free }.answered tag 0x02 .ok (3 :: byte p.val :: c.bytes) ∧
                t.positions[p] = { s.positions[p] with
                  pending := none, armed := Vector.replicate 24 0, seedDue := true }.reminded
                  (evaluate { s.remInputs p with profile := s.profiles[c.profile] } s.positions[p].rem).1 ∧
                  ∀ q : Pos, q ≠ p → t.positions[q] = s.positions[q] ∧ t.pnd.image[q] = s.pnd.image[q] ∧
                    t.chd.requests[q] = s.chd.requests[q])

/-- RULE: valid clear stores the invalid form; otherwise range, order and chain are checked in that order; an accepted
write removes the rule from every armed map and changes nothing else of a position. -/
def Obligations.RuleWrite : Prop :=
  ∀ (s : State) (tag : Byte) (i : RuleIx) (bs : List Byte), s.takes → s.settled → s.cfs.protects .rule = false →
    bs.length = 13 →
      let cmd := Instr.tblwrRule tag (byte i.val) bs
      let outOfRange := u8 bs 3 % 16 = 0 ∨ 8 < u8 bs 4 ∨ 8 < u8 bs 5 ∨ 2 < u8 bs 7 ∨ 2 < u8 bs 8 ∨ 7 < u8 bs 11
      let stored := fun e : RuleEntry => ({ s with
        rules := put s.rules i e
        positions := Vector.ofFn fun p : Pos => { s.positions[p] with armed := put s.positions[p].armed i 0 } }.answered
          tag 0x02 .ok (4 :: byte i.val :: e.bytes))
      let tooLong := fun e : RuleEntry => ∃ j : RuleIx, (put s.rules i e)[j].valid = true ∧
        i ∈ chainOf (put s.rules i e) 24 j ∧ 4 < (chainOf (put s.rules i e) 24 j).length
      (u8 bs 0 = 0 → exec cmd s = .next (stored RuleEntry.invalid)) ∧
        (u8 bs 0 ≠ 0 → outOfRange → exec cmd s = .next (s.answered tag 0x02 .range [4, byte i.val])) ∧
          (u8 bs 0 ≠ 0 → ¬outOfRange → u8 bs 5 < u8 bs 4 →
            exec cmd s = .next (s.answered tag 0x02 .order [4, byte i.val])) ∧
            (u8 bs 0 ≠ 0 → ¬outOfRange → u8 bs 4 ≤ u8 bs 5 → u8 bs 10 ≠ 0xFF → i.val ≤ u8 bs 10 →
              exec cmd s = .next (s.answered tag 0x02 .chain [4, byte i.val])) ∧
              (u8 bs 0 ≠ 0 → ¬outOfRange → u8 bs 4 ≤ u8 bs 5 → u8 bs 10 = 0xFF ∨ u8 bs 10 < i.val →
                ∃ e : RuleEntry, e.valid = true ∧ e.positions = BitVec.ofNat 16 (u16 bs 1) ∧
                  e.bands = BitVec.ofNat 4 (u8 bs 3) ∧ e.fpMin = u8 bs 4 ∧ e.fpMax = u8 bs 5 ∧
                    e.buckles = BitVec.ofNat 3 (u8 bs 6) ∧ e.condA.code = u8 bs 7 ∧ e.condB.code = u8 bs 8 ∧
                      e.tags = BitVec.ofNat 4 (u8 bs 9) ∧ (e.pred.map (·.val)).getD 0xFF = u8 bs 10 ∧
                        outcomeCode e.outcome = u8 bs 11 ∧ e.window = within 1 15 (u8 bs 12) ∧
                          (tooLong e → exec cmd s = .next (s.answered tag 0x02 .chain [4, byte i.val])) ∧
                            (¬tooLong e → exec cmd s = .next (stored e)))

/-- PROFILE: a field outside its range refuses the write RANGE; an accepted one is stored and evaluates every position
that uses the entry, and no other. -/
def Obligations.ProfileWrite : Prop :=
  ∀ (s : State) (tag : Byte) (i : Fin 4) (b0 b1 b2 b3 b4 b5 b6 b7 : Byte), s.takes → s.settled →
    s.cfs.protects .profile = false →
      let e : ProfileEntry :=
        { required := BitVec.ofNat 7 b0.toNat, grace := b1.toNat, visual := b2.toNat, burstOn := b3.toNat
          burstGap := b4.toNat, bursts := b5.toNat, tone := Fin.ofNat 4 b6.toNat, speedGated := b7 ≠ 0 }
      let c := Instr.tblwrProfile tag (byte i.val) [b0, b1, b2, b3, b4, b5, b6, b7]
      (b3 = 0 ∨ 15 < b5.toNat ∨ 3 < b6.toNat → exec c s = .next (s.answered tag 0x02 .range [5, byte i.val])) ∧
        (b3 ≠ 0 → b5.toNat ≤ 15 → b6.toNat ≤ 3 → ∃ t : State, exec c s = .next t ∧
          t = { s with profiles := put s.profiles i e, positions := t.positions
                       pnd := { s.pnd with image := t.pnd.image }, chd := t.chd
                       free := t.free }.answered tag 0x02 .ok (5 :: byte i.val :: e.bytes) ∧
            ∀ p : Pos, t.positions[p] = if s.poscfg[p].profile = i then
              s.positions[p].reminded (evaluate { s.remInputs p with profile := e } s.positions[p].rem).1
              else s.positions[p])

/-- RING_A and RING_B: a valid entry with a slot above 15 is refused RANGE, a next above 11 is stored as END, valid
clear stores the invalid form; an IDLE segment becomes RUNNING at head, and QUEUED records outside the walk slots are
answered NOT_PRESENT. The flag of a moved head is the model's reading (log entry 17), the rank of an answered record is
left open. -/
def Obligations.RingWrite : Prop :=
  ∀ (s : State) (g : Seg) (tag : Byte) (i : RingIx) (v en slot next : Byte), s.takes → s.settled →
    s.cfs.protects .ringA = false →
      let e : RingEntry := if v = 0 then RingEntry.invalid else
        { valid := true, enabled := en ≠ 0, slot := Fin.ofNat 16 slot.toNat
          next := if 11 < next.toNat then none else some (Fin.ofNat 12 next.toNat) }
      let id : Byte := if g = .a then 6 else 7
      let c := if g = .a then Instr.tblwrRingA tag (byte i.val) [v, en, slot, next]
        else .tblwrRingB tag (byte i.val) [v, en, slot, next]
      (v ≠ 0 → 15 < slot.toNat → exec c s = .next (s.answered tag 0x02 .range [id, byte i.val])) ∧
        (v = 0 ∨ slot.toNat ≤ 15 → ∃ (x : Segment) (rs : List PassRecord),
          x = { s.seg g with
            ring := put (s.seg g).ring i e, records := rs
            state := if (s.seg g).state = .idle then .running else (s.seg g).state
            pointer := if (s.seg g).state = .idle then (s.seg g).cfg.head else (s.seg g).pointer
            headMoved := if (s.seg g).state = .idle then false else (s.seg g).headMoved } ∧
            queuedAnswered .notPresent (fun r => r.slot ∉ x.walkSlots) (s.seg g).records rs ∧
              exec c s = .next ((s.setSeg g x).answered tag 0x02 .ok (id :: byte i.val :: e.bytes)))

/-- SEGCFG: every field clamped and stored at once. With enable kept set, a STOPPED segment becomes RUNNING at head,
an IDLE one too, and a moved head waits for the next poll start; with enable cleared while a poll is outstanding the
poll runs on; with enable cleared otherwise the segment goes STOPPED, its ACTIVE slots LOST and their LIVE and HELD
positions SOURCE_LOST with what R10 keeps. The flag of a moved head and the end of a reception are the model's reading
(log entries 15 and 17). -/
def Obligations.SegCfgWrite : Prop :=
  ∀ (s : State) (g : Seg) (tag : Byte) (b0 b1 b2 b3 b4 b5 : Byte), s.takes → s.settled →
    s.cfs.protects .segcfg = false →
      let e : SegCfg :=
        { enable := b0 ≠ 0, head := Fin.ofNat 12 (within 0 11 b1.toNat), pollInterval := within 2 50 b2.toNat
          replyWindow := within 1 10 b3.toNat, missLimit := within 1 15 b4.toNat
          detachCount := within 1 255 b5.toNat }
      let index : Byte := if g = .a then 0 else 1
      let old := s.seg g
      let c := Instr.tblwrSegcfg tag index [b0, b1, b2, b3, b4, b5]
      (b0 ≠ 0 → ∃ (x : Segment) (rs : List PassRecord),
        x = { old with
          cfg := e, records := rs
          state := if old.state = .idle ∨ old.state = .stopped then .running else old.state
          pointer := if old.state = .idle ∨ old.state = .stopped then e.head else old.pointer
          headMoved := if old.state = .idle ∨ old.state = .stopped then false
            else old.headMoved || e.head ≠ old.cfg.head } ∧
          queuedAnswered .notPresent (fun r => r.slot ∉ x.walkSlots) old.records rs ∧
            exec c s = .next ((s.setSeg g x).answered tag 0x02 .ok (8 :: index :: e.bytes))) ∧
        (b0 = 0 → old.poll.isSome → old.state = .running → ∃ (x : Segment) (rs : List PassRecord),
          x = { old with cfg := e, records := rs, headMoved := old.headMoved || e.head ≠ old.cfg.head } ∧
            queuedAnswered .notPresent (fun r => r.slot ∉ x.walkSlots) old.records rs ∧
              exec c s = .next ((s.setSeg g x).answered tag 0x02 .ok (8 :: index :: e.bytes))) ∧
          (b0 = 0 → old.poll = none → old.state ≠ .stopped → ∃ (t : State) (x : Segment) (rs : List PassRecord),
            exec c s = .next t ∧
              x = { old with
                cfg := e, records := rs, state := .stopped, probe := false, pass := none, reception := .none
                pointer := if old.state = .idle then e.head else old.pointer
                headMoved := if old.state = .idle then false else old.headMoved || e.head ≠ old.cfg.head } ∧
                queuedAnswered .segmentOff (fun _ => true) old.records rs ∧
                  t = { s.setSeg g x with slots := t.slots, positions := t.positions, chd := t.chd
                                          pnd := { s.pnd with image := t.pnd.image }
                                          free := t.free }.answered tag 0x02 .ok (8 :: index :: e.bytes) ∧
                    let gone := fun i : Slot => s.slots[i].state = .active ∧ s.slots[i].lastSeg = some g
                    (∀ i : Slot, t.slots[i] = if gone i then
                      { s.slots[i] with state := .lost, lost := 0, events := s.slots[i].events ||| 4, owed := true }
                      else s.slots[i]) ∧
                      ∀ p : Pos, ((∃ i, gone i ∧ s.positions[p].losable i) → t.positions[p] = s.lostPosition p) ∧
                        ((∀ i, gone i → s.positions[p].losable i = false) → t.positions[p] = s.positions[p]))

/-- LOCALCFG: clamped, then refused ORDER when threshold plus hysteresis exceeds 1023; a fitted flag written clear
clears its front position when it is not in NO_SEAT. Stated outside PARK_WATCH for the clearing. -/
def Obligations.LocalCfgWrite : Prop :=
  ∀ (s : State) (tag b0 b1 b2 b3 b4 b5 : Byte), s.takes → s.settled → s.cfs.protects .localcfg = false →
    let e : LocalCfg :=
      { fitted0 := b0 ≠ 0, fitted1 := b1 ≠ 0, threshold := within 1 1023 (b2.toNat * 256 + b3.toNat)
        hyst := within 0 63 b4.toNat, interval := within 10 100 b5.toNat }
    let c := Instr.tblwrLocalcfg tag 0 [b0, b1, b2, b3, b4, b5]
    let clears := fun p : Pos => s.positions[p].presence ≠ .noSeat ∧
      ((p = 0 ∧ e.fitted0 = false) ∨ (p = 1 ∧ e.fitted1 = false))
    (1023 < e.threshold + e.hyst → exec c s = .next (s.answered tag 0x02 .order [9, 0])) ∧
      (e.threshold + e.hyst ≤ 1023 → (∀ p : Pos, ¬clears p) → exec c s = .next
        ({ s with lsu := { s.lsu with cfg := e } }.answered tag 0x02 .ok (9 :: 0 :: e.bytes))) ∧
        (e.threshold + e.hyst ≤ 1023 → s.pmg.power ≠ .parkWatch → ∃ t : State, exec c s = .next t ∧
          t = { s with lsu := { s.lsu with cfg := e }, positions := t.positions, chd := t.chd
                       pmg := { s.pmg with watchSet := t.pmg.watchSet }
                       pnd := { s.pnd with image := t.pnd.image }
                       free := t.free }.answered tag 0x02 .ok (9 :: 0 :: e.bytes) ∧
            ∀ p : Pos, (clears p → t.positions[p] = Position.reset ∧ t.pnd.image[p] = .dark) ∧
              (¬clears p → t.positions[p] = s.positions[p] ∧ t.pnd.image[p] = s.pnd.image[p] ∧
                t.chd.requests[p] = s.chd.requests[p]))

/-- TIMING, PANELCFG and PROTECT: the entry is stored, clamped, and nothing else changes; PANELCFG refuses a layout
code that names neither layout; the PROTECT word leaves the effective protection. -/
def Obligations.PlainTableWrites : Prop :=
  ∀ (s : State) (tag b0 b1 b2 b3 b4 b5 b6 b7 b8 b9 : Byte), s.takes →
    (s.cfs.protects .timing = false →
      let e : Timing :=
        { tick := Fin.ofNat 4 (within 0 3 b0.toNat), runDown := within 1 60 b1.toNat
          dwell := within 10 600 (b2.toNat * 256 + b3.toNat), alertRepeat := within 5 60 b4.toNat
          watchInterval := within 1 10 b5.toNat, watchMax := within 1 120 b6.toNat, wakeTrunk := b7 ≠ 0
          wakeDoor := b8 ≠ 0, wakeBuckle := b9 ≠ 0 }
      exec (.tblwrTiming tag 0 [b0, b1, b2, b3, b4, b5, b6, b7, b8, b9]) s = .next
        ({ s with pmg := { s.pmg with timing := e } }.answered tag 0x02 .ok (10 :: 0 :: e.bytes))) ∧
      (s.cfs.protects .panelcfg = false →
        let e : PanelCfg :=
          { enable := b0 ≠ 0, layout := if b1 = 0 then .fourByEight else .eightByFour
            fitted := BitVec.ofNat 16 (b2.toNat * 256 + b3.toNat), duty := within 1 8 b4.toNat }
        (1 < b1.toNat → exec (.tblwrPanelcfg tag 0 [b0, b1, b2, b3, b4]) s = .next
          (s.answered tag 0x02 .range [11, 0])) ∧
          (b1.toNat ≤ 1 → exec (.tblwrPanelcfg tag 0 [b0, b1, b2, b3, b4]) s = .next
            ({ s with pnd := { s.pnd with cfg := e } }.answered tag 0x02 .ok (11 :: 0 :: e.bytes)))) ∧
        exec (.tblwrProtect tag 0 [b0]) s = .next
          ({ s with cfs := { s.cfs with live := BitVec.ofNat 4 b0.toNat } }.answered tag 0x02 .ok
            [12, 0, byte (b0.toNat % 16)])

/-- TBLRD: BAD_TABLE and TABLE for an id outside 1..12, RANGE for an index beyond the table, otherwise OK with the id,
the index, and the stored entry and the owner's status byte by byte; it changes nothing but the model's counter of free
values. A time remaining is some value up to the duration (log entry 3). POSQRY: RANGE above 15; otherwise OK with the
POSNOTE fields, the pending candidate and count, seed due, notice owed and the 24 windows, and no field of the record
changes. Last, the codes of the enumerations. The order of the status fields, their absent values, the two bits left
over, the pending fields and the windows are deduced (log entry 12), and so is the refusal of POSQRY that carries the
status alone (log entry 30); the absent poll record and answer status, and the flags of PANELCFG's status are the
model's choice (log entries 33 and 34). -/
def Obligations.ReadsAnswered : Prop :=
  (∀ (s : State) (tag id index : Byte), s.takes →
     (id = 0 ∨ 12 < id.toNat → exec (.tblrd tag [id, index]) s = .next
       ({ s with tkp := { s.tkp with flags := { s.tkp.flags with badTable := true } } }.answered tag 0x03 .table
         [id, index])) ∧
       ∀ t : TableId, t.count ≤ index.toNat → exec (.tblrd tag [byte t.id, index]) s = .next
         (s.answered tag 0x03 .range [byte t.id, index])) ∧
  (∀ (s : State) (tag : Byte), s.takes →
     let flag := fun b : Bool => (if b then 1 else 0 : Byte)
     let wide := fun n : Nat => [byte (n / 256), byte n]
     let four := fun n : Nat => [byte (n / 16777216), byte (n / 65536), byte (n / 256), byte n]
     let answers := fun (id : Byte) (index used : Nat) (bs : List Byte) =>
       exec (.tblrd tag [id, byte index]) s = .next
         ({ s with free := s.free + used }.answered tag 0x03 .ok (id :: byte index :: bs))
     let ring := fun e : RingEntry =>
       [flag e.valid, flag e.enabled, byte e.slot.val, match e.next with | none => 0xFF | some n => byte n.val]
     let segment := fun x : Segment =>
       [flag x.cfg.enable, byte x.cfg.head.val, byte x.cfg.pollInterval, byte x.cfg.replyWindow, byte x.cfg.missLimit,
         byte x.cfg.detachCount, byte x.state.code, byte x.pointer.val] ++
         (match x.poll with
           | none => [0xFF, 0xFF, 0xFF]
           | some p => [byte p.slot.val, byte p.entry.val, match p.tag with | none => 0xFF | some b => b]) ++
         [byte x.records.length] ++ x.records.flatMap fun r => [r.tag, byte r.slot.val, byte r.state.code,
           match r.state with | .answered st _ _ => byte st.code | _ => 0xFF]
     (∀ i : Fin 16,
       let e := s.node[i]
       let r := s.slots[i]
       answers 1 i.val 0 ([flag e.valid] ++ four e.serial.toNat ++ [byte e.seatCount, flag e.mirror] ++
         [byte r.state.code] ++ four (match r.serial with | none => 0 | some n => n.toNat) ++
         [match r.lastSeg with | none => 0xFF | some .a => 0 | some .b => 1,
          match r.lastSeq with | none => 0xFF | some q => byte q.val,
          byte r.miss, byte r.lost, r.events, flag r.owed])) ∧
     (∀ i : Fin 24, let e := s.seatmap[i]
       answers 2 i.val 0 [flag e.valid, byte e.slot.val, byte e.seat.val, byte e.pos.val]) ∧
     (∀ i : Fin 16, let c := s.poscfg[i]
       answers 3 i.val 0 ((List.finRange 8).map (fun k => byte c.offsets[k].val) ++ [byte c.gain] ++ wide c.tCell ++
         wide c.tObj ++ wide c.tSmall ++ wide c.tAdult ++ wide c.hyst ++ [byte c.shift.val, byte c.upConfirm,
           byte c.downConfirm, byte c.profile.val, flag c.watchEligible])) ∧
     (∀ i : RuleIx, let e := s.rules[i]
       answers 4 i.val 0 ([flag e.valid] ++ wide e.positions.toNat ++ [byte e.bands.toNat, byte e.fpMin, byte e.fpMax,
         byte e.buckles.toNat, byte e.condA.code, byte e.condB.code, byte e.tags.toNat,
         match e.pred with | none => 0xFF | some k => byte k.val,
         match e.outcome with | none => 0 | some c => byte (c.code + 1), byte e.window])) ∧
     (∀ i : Fin 4, let e := s.profiles[i]
       answers 5 i.val 0 [byte e.required.toNat, byte e.grace, byte e.visual, byte e.burstOn, byte e.burstGap,
         byte e.bursts, byte e.tone.val, flag e.speedGated]) ∧
     (∀ i : RingIx, answers 6 i.val 0 (ring s.sga.ring[i]) ∧ answers 7 i.val 0 (ring s.sgb.ring[i])) ∧
     answers 8 0 0 (segment s.sga) ∧ answers 8 1 0 (segment s.sgb) ∧
     (let l := s.lsu
       ∃ packed : List Byte, packed.length = 24 ∧
         (∀ (i : Fin 19) (b : Fin 10), ((packed.getD ((10 * i.val + b.val) / 8) 0).getLsbD
           (7 - (10 * i.val + b.val) % 8)) = l.results[i].val.testBit (9 - b.val)) ∧
           (packed.getD 23 0).getLsbD 1 = false ∧ (packed.getD 23 0).getLsbD 0 = false ∧
             answers 9 0 0 ([flag l.cfg.fitted0, flag l.cfg.fitted1] ++ wide l.cfg.threshold ++
               [byte l.cfg.hyst, byte l.cfg.interval] ++ [if l.remaining = [] then 0 else 1, flag l.low] ++
                 wide l.lastSupply.val ++ [byte l.seq0.val, byte l.seq1.val] ++ packed)) ∧
     (let m := s.pmg
       ∃ left : Byte, (m.runDown = none → left = 0xFF) ∧ (∀ d, m.runDown = some d → ∃ n ≤ d, left = byte n) ∧
         answers 10 0 1 ([byte m.timing.tick.val, byte m.timing.runDown] ++ wide m.timing.dwell ++
           [byte m.timing.alertRepeat, byte m.timing.watchInterval, byte m.timing.watchMax, flag m.timing.wakeTrunk,
            flag m.timing.wakeDoor, flag m.timing.wakeBuckle] ++
           [byte m.power.code, match m.sub with | none => 0xFF | some w => byte w.code, if m.ignition then 0 else 1,
            if m.doorOpen then 1 else 0, flag m.moving, flag m.locked, flag m.seen, left, flag m.sleepReq,
            byte m.watchSet.length] ++ m.watchSet.map (fun p => byte p.val) ++ wide m.dwell ++
           [byte m.elapsed, byte m.alertNumber, flag m.alertOwed, flag m.wakenoteOwed,
            byte (m.causes.reset.toNat + 2 * m.causes.soft.toNat + 4 * m.causes.ign.toNat + 8 * m.causes.trunk.toNat +
              16 * m.causes.door.toNat + 32 * m.causes.buckle.toNat + 64 * m.causes.watchExpired.toNat)])) ∧
     (let n := s.pnd
       let c := s.chd
       let glyph := fun p : Pos => n.image[p].code
       let tone := fun p : Pos => match c.requests[p] with | none => 15 | some t => t.val
       let pairs := fun f : Pos → Nat => (List.finRange 8).map fun k : Fin 8 =>
         byte (16 * f ⟨2 * k.val, by omega⟩ + f ⟨2 * k.val + 1, by omega⟩)
       ∃ leftPanel leftChime : Nat, leftPanel ≤ 2 ∧ leftChime ≤ 1 ∧
         answers 11 0 2 ([flag n.cfg.enable, byte n.cfg.layout.code] ++ wide n.cfg.fitted.toNat ++ [byte n.cfg.duty] ++
           [flag n.scanning, byte n.flash.code, flag n.test, if n.test then byte leftPanel else 0xFF] ++ pairs glyph ++
           [match c.grant with | .none => 0 | .alert => 1 | .test => 2 | .pos p => byte (3 + p.val),
            flag c.alert.isSome, flag c.test.isSome, if c.test.isSome then byte leftChime else 0xFF] ++ pairs tone)) ∧
     answers 12 0 0 [byte s.cfs.live.toNat]) ∧
  (∀ (s : State) (tag b : Byte) (p : Pos), s.takes →
     let r := s.positions[p]
     let flag := fun b : Bool => (if b then 1 else 0 : Byte)
     (15 < b.toNat → exec (.posqry tag [b]) s = .next (s.answered tag 0x04 .range [])) ∧
       exec (.posqry tag [byte p.val]) s = .next (s.answered tag 0x04 .ok
         ([byte p.val, byte r.presence.code,
           match r.source with | none => 0xFF | some .loc => 0x40 | some (.seat n k) => byte (n.val * 4 + k.val),
           byte r.cls.code, byte r.band.code, byte (r.load / 256), byte r.load, byte r.footprint, byte r.buckle.code,
           byte (r.anchorA.toNat + 2 * r.anchorB.toNat), byte r.tag.code, byte r.rem.state.code] ++
           [match r.pending with | none => 0xFF | some q => byte q.cls.code,
            match r.pending with | none => 0 | some q => byte q.count, flag r.seedDue, flag r.owed, 24] ++
           (List.finRange 24).map fun i => byte r.armed[i]))) ∧
  ([Presence.noSeat, .live, .held, .sourceLost].map Presence.code = [0, 1, 2, 3] ∧
    [Band.empty, .light, .small, .large].map Band.code = [0, 1, 2, 3] ∧
    [Buckle.latched, .opened, .fault].map Buckle.code = [0, 1, 2] ∧
    [RestraintTag.none, .infantRear, .childFwd, .booster].map RestraintTag.code = [0, 1, 2, 3] ∧
    [Cls.vacant, .object, .smallOccupant, .adult, .childSeatEmpty, .childSeatOccupied, .undetermined].map Cls.code =
      [0, 1, 2, 3, 4, 5, 6] ∧
    [RemState.off, .belted, .grace, .visual, .audible, .quiet, .suspended].map RemState.code = [0, 1, 2, 3, 4, 5, 6] ∧
    [SlotState.empty, .active, .refused, .lost].map SlotState.code = [0, 1, 2, 3] ∧
    [SegState.stopped, .idle, .running, .fault].map SegState.code = [0, 1, 2, 3] ∧
    (∀ st body n, [RecordState.queued, .sent, .answered st body n].map RecordState.code = [0, 1, 2]) ∧
    [AnswerStatus.ok, .noResponse, .notPresent, .segmentFault, .segmentOff].map AnswerStatus.code = [0, 1, 2, 3, 4] ∧
    [AnchorCond.any, .engaged, .free].map AnchorCond.code = [0, 1, 2] ∧
    [Layout.fourByEight, .eightByFour].map Layout.code = [0, 1] ∧
    [Glyph.dark, .belted, .unbelted, .warn, .fault].map Glyph.code = [0, 1, 2, 3, 4] ∧
    [FlashPhase.a, .b].map FlashPhase.code = [0, 1] ∧
    [Power.starting, .run, .parkWatch, .sleep].map Power.code = [0, 1, 2, 3] ∧
    [WatchSub.watching, .alerting, .silenced].map WatchSub.code = [0, 1, 2])

/-! ### Requests to seat units, the store -/

/-- NODEREQ: RANGE above 15, NOT_PRESENT for a slot not ACTIVE, BUSY for a segment that holds 3 records; otherwise no
REPLY, and the last segment appends the record, QUEUED, or answered at once in a STOPPED or FAULT segment and outside
the walk slots. The rank of an answered record is the model's own (log entry 22); that a refusal carries the status
alone is its reading (log entry 30). -/
def Obligations.NodeRequest : Prop :=
  ∀ (s : State) (tag b : Byte) (slot : Slot) (g : Seg) (body : List Byte), s.takes → 1 ≤ body.length →
    body.length ≤ 8 →
      let c := Instr.nodereq tag (byte slot.val :: body)
      let x := s.seg g
      let appended := fun st : RecordState => ({ s.setSeg g { x with
        records := x.records ++ [{ tag := tag, slot := slot, body := body, state := st }] } with
          tkp := { s.tkp with rx := .hunt } } : State)
      let n := x.records.countP PassRecord.isAnswered
      (15 < b.toNat → exec (.nodereq tag (b :: body)) s = .next (s.answered tag 0x05 .range [])) ∧
        (s.slots[slot].state ≠ .active → exec c s = .next (s.answered tag 0x05 .notPresent [])) ∧
          (s.slots[slot].state = .active → s.slots[slot].lastSeg = some g →
            (3 ≤ x.records.length → exec c s = .next (s.answered tag 0x05 .busy [])) ∧
              (x.records.length < 3 →
                (x.state = .stopped → exec c s = .next (appended (.answered .segmentOff [] n))) ∧
                  (x.state = .fault → exec c s = .next (appended (.answered .segmentFault [] n))) ∧
                    (x.state = .idle ∨ x.state = .running →
                      (slot ∉ x.walkSlots → exec c s = .next (appended (.answered .notPresent [] n))) ∧
                        (slot ∈ x.walkSlots → exec c s = .next (appended .queued)))))

/-- STAGE: the checks of R193 on id and index, BUSY while an operation is in flight, otherwise the live entry as it
stands is copied, whatever was staged before, and protection is not checked. COMMIT: NOT_STAGED, BUSY, PROTECTED and
LOCKED in that order; an accepted one reserves its place and programs. That a refusal carries the status alone, and that
the target record stands as it is until the completion, is the model's reading (log entries 30 and 25). -/
def Obligations.StageAndCommit : Prop :=
  (∀ (s : State) (tag id index : Byte) (t : TableId), s.takes →
     (id = 0 ∨ 12 < id.toNat → exec (.stage tag [id, index]) s = .next
       ({ s with tkp := { s.tkp with flags := { s.tkp.flags with badTable := true } } }.answered tag 0x06 .table [])) ∧
       (t.count ≤ index.toNat → exec (.stage tag [byte t.id, index]) s = .next (s.answered tag 0x06 .range [])) ∧
         (index.toNat < t.count → s.cfs.op ≠ .idle →
           exec (.stage tag [byte t.id, index]) s = .next (s.answered tag 0x06 .busy [])) ∧
           (index.toNat < t.count → s.cfs.op = .idle → ∃ e : Staged, e.table = t ∧ e.index = index.toNat ∧
             e = s.entryToStage t index.toNat ∧ exec (.stage tag [byte t.id, index]) s = .next
               ({ s with cfs := { s.cfs with staging := some e } }.answered tag 0x06 .ok
                 (byte t.id :: index :: s.entryBytes t index.toNat)))) ∧
  (∀ (s : State) (tag : Byte) (e : Staged), s.takes →
     (s.cfs.staging = none → exec (.commit tag []) s = .next (s.answered tag 0x07 .notStaged [])) ∧
       (s.cfs.staging = some e →
         (s.cfs.op ≠ .idle → exec (.commit tag []) s = .next (s.answered tag 0x07 .busy [])) ∧
           (s.cfs.op = .idle → s.cfs.protects e.table = true →
             exec (.commit tag []) s = .next (s.answered tag 0x07 .isProtected [])) ∧
             (s.cfs.op = .idle → e.table = .protect → s.cfs.store.lock = true →
               exec (.commit tag []) s = .next (s.answered tag 0x07 .locked [])) ∧
               (s.cfs.op = .idle → s.cfs.protects e.table = false → e.table ≠ .protect ∨ s.cfs.store.lock = false →
                 exec (.commit tag []) s = .next (s.reserved tag 0x07 .commit))))

/-- NVCANCEL: IDLE empties the staging record; COMMITTING erases the target, keeps the staging record and fills the
COMMIT's place with CANCELLED before its own OK; ERASING and LOCKING answer BUSY. That the REPLY carries the status
alone is the model's reading (log entry 30). -/
def Obligations.CancelCommit : Prop :=
  ∀ (s : State) (tag : Byte) (e : Staged) (r : Reserved), s.takes →
    (s.cfs.op = .idle → exec (.nvcancel tag []) s = .next
      ({ s with cfs := { s.cfs with staging := none } }.answered tag 0x08 .ok [])) ∧
      (s.cfs.op = .running .commit → s.cfs.staging = some e → s.tkp.reserved = some r →
        exec (.nvcancel tag []) s = .next ({ s with
          cfs := { s.cfs with store := s.cfs.store.record false e, op := .idle }
          tkp := { s.tkp with
            reserved := none
            replies := s.tkp.replies ++ [Reply.mk r.tag r.kind .cancelled []] } }.answered tag 0x08 .ok [])) ∧
        ((∃ k, s.cfs.op = .running (.erase k)) ∨ s.cfs.op = .running .lock →
          exec (.nvcancel tag []) s = .next (s.answered tag 0x08 .busy []))

/-- NVERASE: RANGE above 3, then LOCKED, PROTECTED and BUSY in that order; an accepted one reserves its place. PROTLOAD
copies the stored word into the effective protection, region 1 forced by the lock; CALLOCK is OK at once with the lock
set and otherwise starts the lock; both are BUSY while an operation is in flight. The bodies of refusals and of
PROTLOAD's REPLY, and that the region's records stand as they are until the completion, are the model's reading (log
entries 12, 30 and 25), and so is a stored word that is erased, taken at PROTLOAD as no region protected (log entry 36).
-/
def Obligations.EraseAndProtection : Prop :=
  (∀ (s : State) (tag b : Byte) (r : Fin 4), s.takes →
     (3 < b.toNat → exec (.nverase tag [b]) s = .next (s.answered tag 0x09 .range [])) ∧
       (s.cfs.store.lock = true → exec (.nverase tag [byte r.val]) s = .next (s.answered tag 0x09 .locked [])) ∧
         (s.cfs.store.lock = false →
           (s.cfs.effective.getLsbD r.val = true →
             exec (.nverase tag [byte r.val]) s = .next (s.answered tag 0x09 .isProtected [])) ∧
             (s.cfs.effective.getLsbD r.val = false →
               (s.cfs.op ≠ .idle → exec (.nverase tag [byte r.val]) s = .next (s.answered tag 0x09 .busy [])) ∧
                 (s.cfs.op = .idle → exec (.nverase tag [byte r.val]) s = .next
                   (s.reserved tag 0x09 (.erase r)))))) ∧
  (∀ (s : State) (tag : Byte), s.takes →
     (s.cfs.op ≠ .idle → exec (.protload tag []) s = .next (s.answered tag 0x0A .busy [])) ∧
       (s.cfs.op = .idle → ∃ w : BitVec 4,
         (∀ r : Fin 4, w.getLsbD r.val =
           ((s.cfs.store.protect.getD 0).getLsbD r.val || (s.cfs.store.lock && r.val = 1))) ∧
           exec (.protload tag []) s = .next
             ({ s with cfs := { s.cfs with effective := w } }.answered tag 0x0A .ok [byte w.toNat])) ∧
         (s.cfs.store.lock = true → exec (.callock tag []) s = .next (s.answered tag 0x0B .ok [])) ∧
           (s.cfs.store.lock = false → s.cfs.op ≠ .idle →
             exec (.callock tag []) s = .next (s.answered tag 0x0B .busy [])) ∧
             (s.cfs.store.lock = false → s.cfs.op = .idle →
               exec (.callock tag []) s = .next (s.reserved tag 0x0B .lock)))

/-- The completion of a store operation returns the store to IDLE and fills the reserved place: a commit that matches
(OK with table id and index, staging emptied), one that does not (record erased, PROGRAM_FAIL, FAILED), an erase, a
lock, which protects region 1 at once. That the REPLY to NVERASE and CALLOCK and a FAILED one carry the status alone is
the model's reading (log entry 30). -/
def Obligations.StoreCompletions : Prop :=
  ∀ (s : State) (e : Staged) (k : Fin 4) (q : Reserved), s.tkp.reserved = some q →
    let filled := fun (st : Status) (body : List Byte) => { s.tkp with
      reserved := none, replies := s.tkp.replies ++ [{ tag := q.tag, kind := q.kind, status := st, body := body }] }
    (s.cfs.op = .running .commit → s.cfs.staging = some e →
      exec (.commitComplete true) s = .next { s with
        cfs := { s.cfs with store := s.cfs.store.record true e, staging := none, op := .idle }
        tkp := filled .ok [byte e.table.id, byte e.index] } ∧
        exec (.commitComplete false) s = .next { s with
          cfs := { s.cfs with store := s.cfs.store.record false e, op := .idle, programFail := true }
          tkp := filled .failed [] }) ∧
      (s.cfs.op = .running (.erase k) → exec .eraseComplete s = .next { s with
        cfs := { s.cfs with store := s.cfs.store.eraseRegion k, op := .idle }, tkp := filled .ok [] }) ∧
        (s.cfs.op = .running .lock → ∃ w : BitVec 4,
          (∀ r : Fin 4, w.getLsbD r.val = (s.cfs.effective.getLsbD r.val || decide (r.val = 1))) ∧
            exec .lockComplete s = .next { s with
              cfs := { s.cfs with store := { s.cfs.store with lock := true }, effective := w, op := .idle }
              tkp := filled .ok [] })

/-! ### Requests to PMG, CHD, PND and TKP -/

/-- SLEEPREQ and ALERTACK by the power state, the ignition and the sub-state. CHIMETST raises the test request or
restarts it from tone 0, the grant going to TEST from none or a position; PANELTST starts the panel test; SOFTRST
sets soft reset pending. Each is answered OK at once. That the REPLY carries the status alone is the model's reading
(log entry 30). -/
def Obligations.RequestsToBlocks : Prop :=
  (∀ (s : State) (tag : Byte), s.takes →
     (s.pmg.power = .run → s.pmg.ignition = false → exec (.sleepreq tag []) s = .next
       ({ s with pmg := { s.pmg with sleepReq := true } }.answered tag 0x0C .ok [])) ∧
       (s.pmg.power ≠ .run ∨ s.pmg.ignition = true →
         exec (.sleepreq tag []) s = .next (s.answered tag 0x0C .state [])) ∧
         (s.pmg.sub = some .alerting → s.chd.whole → ∃ c : Chd,
           c = { s.chd with alert := none, grant := c.grant } ∧ c.whole ∧ exec (.alertack tag []) s = .next
             ({ s with
               chd := c
               pmg := { s.pmg with sub := some .silenced, alertRepeat := none, alertOwed := false } }.answered tag 0x0D
                 .ok [])) ∧
           (s.pmg.sub = some .silenced → exec (.alertack tag []) s = .next (s.answered tag 0x0D .ok [])) ∧
             (s.pmg.sub = some .watching ∨ s.pmg.sub = none →
               exec (.alertack tag []) s = .next (s.answered tag 0x0D .state []))) ∧
  (∀ (s : State) (tag : Byte), s.takes →
     (s.chd.test = none → exec (.chimetst tag []) s = .next
       ({ s with chd := { s.chd with
         test := some 0, grant := if s.chd.grant = Grant.alert then Grant.alert else Grant.test } }.answered tag 0x0E .ok [])) ∧
       (s.chd.test.isSome → exec (.chimetst tag []) s = .next
         ({ s with chd := { s.chd with test := some 0 } }.answered tag 0x0E .ok [])) ∧
         exec (.paneltst tag []) s = .next
           ({ s with pnd := { s.pnd with test := true } }.answered tag 0x0F .ok []) ∧
           exec (.softrst tag []) s = .next
             ({ s with tkp := { s.tkp with softReset := true } }.answered tag 0x12 .ok []))

/-- CLRFLAG: RANGE for a code that names no block; otherwise the flags whose bit is set in the mask are cleared, the
others left, mask bits that name no flag ignored, and the REPLY carries the flags after. IDENTQ is answered OK in every
power state in which frames are taken, STARTING included, with identity, power state, protection, lock and every block's
error flags. The one-byte body of CLRFLAG's REPLY and its refusal with the status alone are deduced (log entries 12 and
30). -/
def Obligations.FlagsAndIdentity : Prop :=
  (∀ (s : State) (tag b mask : Byte), s.takes →
     (4 < b.toNat → exec (.clrflag tag [b, mask]) s = .next (s.answered tag 0x10 .range [])) ∧
       (let f := s.tkp.flags
         let f' : TkpFlags :=
           { badFrame := f.badFrame && !mask.getLsbD 0, badCheck := f.badCheck && !mask.getLsbD 1
             badKind := f.badKind && !mask.getLsbD 2, replyOverrun := f.replyOverrun && !mask.getLsbD 3
             mirrorDrop := f.mirrorDrop && !mask.getLsbD 4, badTable := f.badTable && !mask.getLsbD 5 }
         exec (.clrflag tag [0, mask]) s = .next ({ s with tkp := { s.tkp with flags := f' } }.answered tag 0x10 .ok
           [byte (f'.badFrame.toNat + 2 * f'.badCheck.toNat + 4 * f'.badKind.toNat + 8 * f'.replyOverrun.toNat +
             16 * f'.mirrorDrop.toNat + 32 * f'.badTable.toNat)])) ∧
         (∀ g : Seg,
           let x := { s.seg g with
             badCheck := (s.seg g).badCheck && !mask.getLsbD 0
             unsolicited := (s.seg g).unsolicited && !mask.getLsbD 1
             lineStuck := (s.seg g).lineStuck && !mask.getLsbD 2 }
           exec (.clrflag tag [if g = .a then 1 else 2, mask]) s = .next ((s.setSeg g x).answered tag 0x10 .ok
             [byte (x.badCheck.toNat + 2 * x.unsolicited.toNat + 4 * x.lineStuck.toNat)])) ∧
           (let low := s.lsu.supplyLowFlag && !mask.getLsbD 0;
             exec (.clrflag tag [3, mask]) s = .next
               ({ s with lsu := { s.lsu with supplyLowFlag := low } }.answered tag 0x10 .ok [byte low.toNat])) ∧
             (let fail := s.cfs.programFail && !mask.getLsbD 0;
               exec (.clrflag tag [4, mask]) s = .next
                 ({ s with cfs := { s.cfs with programFail := fail } }.answered tag 0x10 .ok [byte fail.toNat]))) ∧
  (∀ (s : State) (tag : Byte), s.tkp.rx = .inFrame → s.tkp.placesTaken < 8 →
     exec (.identq tag []) s = .next (s.answered tag 0x11 .ok
       [0x5A, 0x3D, 0x7E, 0x20, 1, byte s.pmg.power.code,
        byte (s.cfs.effective.toNat + 128 * s.cfs.store.lock.toNat),
        byte (s.tkp.flags.badFrame.toNat + 2 * s.tkp.flags.badCheck.toNat + 4 * s.tkp.flags.badKind.toNat +
          8 * s.tkp.flags.replyOverrun.toNat + 16 * s.tkp.flags.mirrorDrop.toNat + 32 * s.tkp.flags.badTable.toNat),
        byte (s.sga.badCheck.toNat + 2 * s.sga.unsolicited.toNat + 4 * s.sga.lineStuck.toNat),
        byte (s.sgb.badCheck.toNat + 2 * s.sgb.unsolicited.toNat + 4 * s.sgb.lineStuck.toNat),
        byte s.lsu.supplyLowFlag.toNat, byte s.cfs.programFail.toNat]))

/-! ### The transmitter -/

/-- The frame a send starts, in the order of R201: the owed ALERT, the head of the reply FIFO, the NODEANS of segment A
before that of B, the owed WAKENOTE, the lowest owed position, the lowest owed slot, the head mirror copy. Each carries
its kind, its tag and the payload of section 10.10 field by field, and clears what it owes. No send but the head of the
reply FIFO starts in STARTING, none starts in SLEEP, and none while a frame is being sent. The rank of an answered
record and the send row that changes nothing are the model's own (log entries 22 and 1). -/
def Obligations.SendsInOrder : Prop :=
  (∀ (s : State) (r : Reply) (rs : List Reply) (g : Seg) (a : PassRecord) (st : AnswerStatus) (body : List Byte)
     (p : Pos) (i : Slot) (c : MirrorCopy) (cs : List MirrorCopy),
     s.tkp.tx = none → s.pmg.power = .run ∨ s.pmg.power = .parkWatch →
       let wide := fun n : Nat => [byte (n / 256), byte n]
       let four := fun n : Nat => [byte (n / 16777216), byte (n / 65536), byte (n / 256), byte n]
       let alert := [byte s.pmg.alertNumber, match s.pmg.sub with | none => 0xFF | some w => byte w.code] ++
         wide s.pmg.timing.dwell ++ [byte s.pmg.watchSet.length] ++ s.pmg.watchSet.flatMap fun q =>
           let x := s.positions[q]
           match x.source with
           | some (.seat n k) => [byte (16 * q.val + 4 * x.presence.code + k.val), byte (32 * x.cls.code + 2 * n.val)]
           | _ => [byte (16 * q.val + 4 * x.presence.code), byte (32 * x.cls.code)]
       let posnote :=
         let x := s.positions[p]
         [byte p.val, byte x.presence.code,
          match x.source with | none => 0xFF | some .loc => 0x40 | some (.seat n k) => byte (n.val * 4 + k.val),
          byte x.cls.code, byte x.band.code] ++ wide x.load ++ [byte x.footprint, byte x.buckle.code,
            byte (x.anchorA.toNat + 2 * x.anchorB.toNat), byte x.tag.code, byte x.rem.state.code]
       let seatnote :=
         let x := s.slots[i]
         [byte i.val, byte x.state.code] ++ four (match x.serial with | none => 0 | some n => n.toNat) ++
           [match x.lastSeg with | none => 0xFF | some .a => 0 | some .b => 1, x.events]
       let mirror := [byte c.slot.val, match c.seg with | .a => 0 | .b => 1] ++ four c.serial.toNat ++
         [byte c.seq.val, c.flags, byte c.count] ++ c.raw
       let causes :=
         let x := s.pmg.causes
         byte (x.reset.toNat + 2 * x.soft.toNat + 4 * x.ign.toNat + 8 * x.trunk.toNat + 16 * x.door.toNat +
           32 * x.buckle.toNat + 64 * x.watchExpired.toNat)
       let sends := fun (kind tag : Byte) (payload : List Byte) (act : SendAction) => { s.tkp with
         tx := some { frame := { kind := kind, tag := tag, payload := payload }, action := act } }
       let noAnswer := s.sga.offer = none ∧ s.sgb.offer = none
       let noNotice := ∀ q : Pos, s.positions[q].owed = false
       (s.pmg.alertOwed = true → exec .sendAlert s = .next { s with
         tkp := sends 0x84 0 alert .notice, pmg := { s.pmg with alertOwed := false } }) ∧
         (s.pmg.alertOwed = false →
           (s.tkp.replies = r :: rs → exec .sendReply s = .next { s with
             tkp := sends 0x81 r.tag (r.kind :: byte r.status.code :: r.body) (.reply r.kind r.status) }) ∧
             (s.tkp.replies = [] →
               ((s.seg g).offer = some a → a.state = .answered st body 0 → g = .a ∨ s.sga.offer = none →
                 exec .sendNodeans s = .next { s with
                   tkp := sends 0x85 a.tag (byte a.slot.val :: byte st.code :: body) (.record g) }) ∧
                 (noAnswer →
                   (s.pmg.wakenoteOwed = true → exec .sendWakenote s = .next { s with
                     tkp := sends 0x87 0 [causes, byte s.pmg.power.code, byte s.cfs.summary.toNat] .notice
                     pmg := { s.pmg with wakenoteOwed := false, causes := Causes.empty } }) ∧
                     (s.pmg.wakenoteOwed = false →
                       (s.positions[p].owed = true → (∀ q : Pos, q < p → s.positions[q].owed = false) →
                         exec .sendPosnote s = .next { s with
                           tkp := sends 0x82 0 posnote .notice
                           positions := put s.positions p { s.positions[p] with owed := false } }) ∧
                         (noNotice →
                           (s.slots[i].owed = true → (∀ j : Slot, j < i → s.slots[j].owed = false) →
                             exec .sendSeatnote s = .next { s with
                               tkp := sends 0x83 0 seatnote .notice
                               slots := put s.slots i { s.slots[i] with events := 0, owed := false } }) ∧
                             ((∀ j : Slot, s.slots[j].owed = false) → s.tkp.mirror = c :: cs →
                               exec .sendMirror s = .next { s with tkp := sends 0x86 0 mirror .mirror }))))))) ∧
  (∀ s : State,
     (s.tkp.tx.isSome ∨ s.pmg.power = .sleep → exec .sendReply s = .next s) ∧
       (s.tkp.tx.isSome ∨ s.pmg.power = .sleep ∨ s.pmg.power = .starting →
         exec .sendAlert s = .next s ∧ exec .sendNodeans s = .next s ∧ exec .sendWakenote s = .next s ∧
           exec .sendPosnote s = .next s ∧ exec .sendSeatnote s = .next s ∧ exec .sendMirror s = .next s) ∧
         (∀ r rs, s.tkp.tx = none → s.pmg.power = .starting → s.tkp.replies = r :: rs →
           exec .sendReply s = .next { s with tkp := { s.tkp with tx := some {
             frame := { kind := 0x81, tag := r.tag, payload := r.kind :: byte r.status.code :: r.body }
             action := .reply r.kind r.status } } }))

/-- The completion of a send: a notice hands nothing on, a REPLY frees its place, the refused REPLY to SOFTRST or
SLEEPREQ among them, a NODEANS removes its record, a MIRROR the head copy; the REPLY to SLEEPREQ with its request still
standing in RUN with the ignition off acts as the run-down expiry does. What the accepted REPLY to SOFTRST brings is in
`SoftReset`. The record a NODEANS removes is the one of rank 0, a rank that the model holds (log entry 22). -/
def Obligations.SendCompletes : Prop :=
  ∀ (s : State) (ign door : Bool) (f : OutFrame), s.settled →
    let act := fun a : SendAction => s.tkp.tx = some { frame := f, action := a }
    (act .notice → exec (.sendComplete ign door) s = .next { s with tkp := { s.tkp with tx := none } }) ∧
      (∀ k st, act (.reply k st) → st ≠ .ok ∨ (k ≠ 0x12 ∧ k ≠ 0x0C) →
        exec (.sendComplete ign door) s = .next { s with tkp := { s.tkp with
          tx := none, replies := s.tkp.replies.tail } }) ∧
        (∀ g, act (.record g) → ∃ rs : List PassRecord,
          exec (.sendComplete ign door) s = .next { s.setSeg g { s.seg g with records := rs } with
            tkp := { s.tkp with tx := none } } ∧
            (∀ a b n, (s.seg g).offer = some a → (s.seg g).records = b ++ a :: n → a ∉ b →
              rs.map (fun r => (r.tag, r.slot, r.body)) = (b ++ n).map fun r => (r.tag, r.slot, r.body))) ∧
          (act .mirror → exec (.sendComplete ign door) s = .next { s with tkp := { s.tkp with
            tx := none, mirror := s.tkp.mirror.tail } }) ∧
            (act (.reply 0x0C .ok) → s.pmg.sleepReq = false ∨ s.pmg.power ≠ .run ∨ s.pmg.ignition = true →
              exec (.sendComplete ign door) s = .next { s with tkp := { s.tkp with
                tx := none, replies := s.tkp.replies.tail } }) ∧
              (act (.reply 0x0C .ok) → s.pmg.sleepReq = true → s.pmg.power = .run → s.pmg.ignition = false →
                s.pmg.runDown.isSome → exec (.sendComplete ign door) s =
                  exec .rundownExpiry { s with tkp := { s.tkp with tx := none, replies := s.tkp.replies.tail } })

/-- The completion of SOFTRST's REPLY brings the soft reset, in RUN and PARK_WATCH and, where the send completes after
entry to SLEEP, out of SLEEP as a wake does: slots EMPTY, positions at their reset state, chime silent, glyphs DARK,
records and FIFOs gone, RUN with SOFT added and WAKENOTE owed; tables, error flags and store are kept, and the receiver
too, but out of SLEEP, where it waits for an idle line and a suspended store operation restarts. The levels at the reset
are operands by the model's choice (log entries 8 and 28). What the model adds in these next states: a segment frame in
reception is given up (log entry 15), the flag of a moved head is cleared (log entry 17), a scan start that waits is
dropped (log entry 18), the panel's frame in progress keeps the panel test it started with (log entry 20), chime events
on their way, of which there are none between steps, are dropped (log entry 21), and out of SLEEP the panel's frame
drives nothing yet (log entry 29). -/
def Obligations.SoftReset : Prop :=
  ∀ (s : State) (ign door : Bool) (f : OutFrame), s.tkp.softReset = true →
    s.tkp.tx = some { frame := f, action := .reply 0x12 .ok } →
      (s.pmg.power = .run ∨ s.pmg.power = .parkWatch → s.pnd.scanning = true →
        exec (.sendComplete ign door) s = .next { s with
          tkp := { s.tkp with tx := none, replies := [], mirror := [], softReset := false }
          sga := s.sga.abandoned.started
          sgb := s.sgb.abandoned.started
          slots := Vector.replicate 16 SlotRec.reset
          positions := Vector.replicate 16 Position.reset
          chd := Chd.reset
          toChime := []
          lsu := { s.lsu with seq0 := 0, seq1 := 0 }.scanning
          tick := some (tickPeriod s.pmg.timing.tick)
          pnd := { s.pnd with test := false, image := Vector.replicate 16 .dark, flash := .a }
          pmg := { s.pmg.unwatched with
            power := .run, ignition := ign, doorOpen := door, moving := s.pmg.moving && ign, sleepReq := false
            runDown := if ign then none else some s.pmg.timing.runDown
            causes := { s.pmg.causes with soft := true }, wakenoteOwed := true } }) ∧
        (s.pmg.power = .sleep → s.resting →
          exec (.sendComplete ign door) s = .next ({ s with
            tkp := { s.tkp with tx := none, replies := [], mirror := [], softReset := false }
            sga := s.sga.abandoned
            sgb := s.sgb.abandoned
            slots := Vector.replicate 16 SlotRec.reset
            positions := Vector.replicate 16 Position.reset
            chd := Chd.reset
            toChime := []
            lsu := { s.lsu with seq0 := 0, seq1 := 0 }
            pnd := { s.pnd with test := false, image := Vector.replicate 16 .dark } : State }.woken
              { s.pmg.unwatched with
                ignition := ign, doorOpen := door, moving := s.pmg.moving && ign, sleepReq := false
                causes := { s.pmg.causes with soft := true } }))

/-! ### The segments -/

/-- Spacing, the end of a POLL, a frame's begin, the idle line and the probe: each changes its segment alone. That an
event the segment cannot take changes nothing and that the line's level is an operand is the model's choice (log entries
1 and 8), the flag of a moved head its reading (log entry 17). -/
def Obligations.SegmentTimers : Prop :=
  ∀ (s : State) (g : Seg) (p : PollRec) (bytes : List Byte),
    let x := s.seg g
    exec (.spacingExpiry g) s = .next (s.setSeg g { x with spacing := none }) ∧
      (x.poll = some p → x.sending = some bytes → exec (.pollSent g) s = .next (s.setSeg g { x with
        sending := none, window := some p.window })) ∧
        (x.state = .idle ∨ x.state = .running → x.sending = none → x.reception = .none →
          exec (.segmentFrameBegin g) s = .next (s.setSeg g { x with reception := .receiving })) ∧
          (x.state = .stopped ∨ x.state = .fault ∨ x.sending.isSome → exec (.segmentFrameBegin g) s = .next s) ∧
            (x.reception = .ignoring → exec (.segmentLineIdle g) s = .next (s.setSeg g { x with
              reception := .none })) ∧
              (x.state = .fault → x.probe = true →
                exec (.probeExpiry g false) s = .next (s.setSeg g { x with
                  state := .running, pointer := x.cfg.head, headMoved := false, probe := false }) ∧
                  exec (.probeExpiry g true) s = .next s)

/-- A poll start in RUN at a pointer inside the walk set: the first pollable entry among the twelve that start at the
pointer and go on by next, or to head at END and at an invalid entry, is polled, the entries before it skipped; the
oldest QUEUED record for its slot is attached and becomes SENT, the spacing timer starts, the pointer stands on the
entry after it. With none of the twelve pollable the segment goes IDLE with the pointer where the twelfth skip left it,
nothing is sent and the spacing timer does not start. The walk begins at head when the pointer lies outside the walk
set or a SEGCFG write moved it. Outside RUNNING, with a poll outstanding or spacing running, no poll starts. The
reception given up, the flag of a moved head and the event that changes nothing are the model's reading (log entries
15, 17 and 1). -/
def Obligations.PollStart : Prop :=
  (∀ (s : State) (g : Seg) (a b : List PassRecord) (r : PassRecord),
     let x := s.seg g
     let after := fun i : RingIx => match x.ring[i].next with
       | some n => if x.ring[n].valid then n else x.cfg.head
       | none => x.cfg.head
     let visit := fun k : Nat => after^[k] x.pointer
     let pollable := fun i : RingIx => x.ring[i].valid = true ∧ x.ring[i].enabled = true
     s.pmg.power = .run → x.state = .running → x.poll = none → x.spacing = none → x.headMoved = false →
       x.pointer ∈ x.walkSet →
         (∀ k < 12, (∀ j < k, ¬pollable (visit j)) → pollable (visit k) →
           let slot := x.ring[visit k].slot
           let waits := fun q : PassRecord => q.state = .queued ∧ q.slot = slot
           let polled := fun (tag : Option Byte) (body : List Byte) (rs : List PassRecord) => s.setSeg g { x with
             pointer := visit (k + 1), headMoved := false
             poll := some { slot := slot, entry := visit k, tag := tag, window := x.cfg.replyWindow }
             sending := some (pollBytes slot body), spacing := some x.cfg.pollInterval, window := none, records := rs
             reception := if x.reception = .receiving then .none else x.reception }
           ((∀ q ∈ x.records, ¬waits q) → exec (.pollStart g) s = .next (polled none [] x.records)) ∧
             (x.records = a ++ r :: b → (∀ q ∈ a, ¬waits q) → waits r → exec (.pollStart g) s = .next
               (polled (some r.tag) r.body (a ++ { r with state := .sent } :: b)))) ∧
           ((∀ k < 12, ¬pollable (visit k)) → exec (.pollStart g) s = .next (s.setSeg g { x with
             state := .idle, pointer := visit 12, headMoved := false }))) ∧
  (∀ (s : State) (g : Seg),
     let x := s.seg g
     (s.pmg.power = .run → x.state = .running → x.poll = none → x.spacing = none →
       (x.headMoved = true ∨ x.pointer ∉ x.walkSet → exec (.pollStart g) s =
         exec (.pollStart g) (s.setSeg g { x with pointer := x.cfg.head, headMoved := false })) ∧
         ((∀ i : RingIx, (x.ring[i].valid && x.ring[i].enabled) = false) → ∃ k : RingIx,
           exec (.pollStart g) s = .next (s.setSeg g { x with state := .idle, pointer := k, headMoved := false }))) ∧
       (x.state ≠ .running ∨ x.poll.isSome ∨ x.spacing.isSome → exec (.pollStart g) s = .next s))

/-- A poll start in PARK_WATCH polls only a slot that sources a watched position, at a valid, enabled entry of the walk
set that the pass has not visited: so for every pass in progress, and without one no poll starts. The entry to visit
next is polled when it is eligible; when it is not (no watched position draws on its slot, say, or a write during the
pass left it outside the walk set), it counts as visited and the pass goes on by its next; a pass with no entry left to
visit polls nothing. With none polled the pass is over, RUNNING where it polled before and IDLE where not; at the start
of a pass the head entry is the one to visit, and with no watched position sourced by any slot the pass ends without a
POLL. That without a pass nothing changes, that the pointer follows the pass, that the entry to visit next is fixed at a
poll start and that a pass goes on by the next of an entry outside the walk set are the model's choice (log entries 1,
16 and 32). -/
def Obligations.WatchPassPolls : Prop :=
  ∀ (s : State) (g : Seg),
    let x := s.seg g
    let watched := fun slot : Slot => ∃ p ∈ s.pmg.watchSet, ∃ ix : SeatIx,
      s.positions[p].presence ≠ .noSeat ∧ s.positions[p].source = some (.seat slot ix)
    let eligible := fun i : RingIx =>
      x.ring[i].valid = true ∧ x.ring[i].enabled = true ∧ watched x.ring[i].slot ∧ i ∈ x.walkSet
    let after := fun i : RingIx => x.ring[i].next.filter fun n => x.ring[n].valid
    s.pmg.power = .parkWatch → x.state = .running → x.poll = none → x.spacing = none →
      (x.pass = none → exec (.pollStart g) s = .next s) ∧
        (∀ w : Machine.WatchPass, x.pass = some w →
          ∃ t : State, exec (.pollStart g) s = .next t ∧ t = s.setSeg g (t.seg g) ∧
            (∀ q : PollRec, (t.seg g).poll = some q → watched q.slot ∧ eligible q.entry ∧
              x.ring[q.entry].slot = q.slot ∧ q.entry ∉ w.visited) ∧
              ((t.seg g).poll = none → (t.seg g).pass = none ∧
                (t.seg g).state = if w.polled then .running else .idle) ∧
                ((∀ e : RingIx, w.next = some e → e ∈ w.visited) → (t.seg g).poll = none) ∧
                  ∀ e : RingIx, w.next = some e → e ∉ w.visited →
                    (eligible e →
                      ((t.seg g).poll.map fun p => (p.slot, p.entry)) = some (x.ring[e].slot, e) ∧
                        (t.seg g).pass = some {
                          next := (after e).filter fun n => n ∉ w.visited ++ [e]
                          visited := w.visited ++ [e], polled := true }) ∧
                      (¬eligible e → exec (.pollStart g) s = exec (.pollStart g) (s.setSeg g { x with
                        pass := some { next := after e, visited := w.visited ++ [e], polled := w.polled } }))) ∧
          (x.pass = some { next := some x.cfg.head, visited := [], polled := false } →
            ((∀ slot : Slot, ¬watched slot) → ∃ k : RingIx, exec (.pollStart g) s = .next (s.setSeg g { x with
              pass := none, state := .idle, pointer := k })) ∧
              (eligible x.cfg.head → ∃ (t : State) (w : Machine.WatchPass), exec (.pollStart g) s = .next t ∧
                ((t.seg g).poll.map fun p => (p.slot, p.entry)) = some (x.ring[x.cfg.head].slot, x.cfg.head) ∧
                  (t.seg g).pass = some w ∧ w.polled = true ∧ w.visited = [x.cfg.head] ∧
                    t = s.setSeg g (t.seg g)))

/-- A segment that receives and has no poll outstanding: a completed or a cut frame sets UNSOLICITED and is discarded. A
frame that is being ignored is not such a frame. The four ends of a poll that are a miss, at a slot whose misses are not
counted on this segment: a frame that is no good REPORT and a cut one set BAD_CHECK, a good REPORT of another slot sets
UNSOLICITED, the window's expiry sets no flag and leaves a frame in reception to be ignored. In each the SENT record is
answered NO_RESPONSE. Last, the same ends of a poll, at any slot, and the end by a good REPORT of the polled slot, with
a disable waiting: UTR takes the outcome first, and then the segment goes STOPPED, every QUEUED record not answered
NOT_PRESENT before is answered SEGMENT_OFF, every ACTIVE slot of the segment goes LOST and the positions of these
SOURCE_LOST. The records are stated where the step does not enter SLEEP, which a cleared position may bring in
PARK_WATCH. The rank of an answered record, the order within the end of a poll and the end of a reception are the
model's own (log entries 22, 14 and 15). -/
def Obligations.PollMissed : Prop :=
  (∀ (s : State) (g : Seg) (bytes : List Byte),
     let x := s.seg g
     (x.state = .idle ∨ x.state = .running → x.poll = none → x.reception = .receiving →
       exec (.segmentFrame g bytes) s = .next (s.setSeg g { x with reception := .none, unsolicited := true }) ∧
         exec (.segmentFrameCut g) s = .next (s.setSeg g { x with reception := .none, unsolicited := true })) ∧
       (x.reception = .ignoring → exec (.segmentFrame g bytes) s = .next s)) ∧
  (∀ (s : State) (g : Seg) (p : PollRec) (bytes : List Byte) (r : Report),
     let x := s.seg g
     let ended := x.pollOver .noResponse []
     s.settled → x.sentWhole → x.state = .running → x.cfg.enable = true → x.poll = some p →
       s.slots[p.slot].state = .empty ∨ s.slots[p.slot].lastSeg ≠ some g →
         (x.reception = .receiving →
           (parseReport bytes = none → exec (.segmentFrame g bytes) s = .next
             (s.setSeg g { ended with reception := .none, badCheck := true })) ∧
             exec (.segmentFrameCut g) s = .next (s.setSeg g { ended with reception := .none, badCheck := true }) ∧
               (parseReport bytes = some r → r.slot ≠ p.slot → exec (.segmentFrame g bytes) s = .next
                 (s.setSeg g { ended with reception := .none, unsolicited := true }))) ∧
           (x.window.isSome → exec (.replyWindowExpiry g) s = .next (s.setSeg g { ended with
             reception := if x.reception = .receiving then .ignoring else x.reception }))) ∧
  (∀ (s : State) (g : Seg) (p : PollRec),
     let x := s.seg g
     let r := s.slots[p.slot]
     let gone := fun i : Slot => s.slots[i].state = .active ∧ s.slots[i].lastSeg = some g
     let lost := fun i : Slot =>
       { s.slots[i] with state := .lost, lost := 0, events := s.slots[i].events ||| 4, owed := true }
     let drops := r.lastSeg = some g ∧ ((r.state = .lost ∧ x.cfg.detachCount ≤ r.lost + 1) ∨
       (r.state = .refused ∧ x.cfg.detachCount ≤ r.miss + 1))
     let missed := if drops then { SlotRec.reset with events := r.events ||| 16, owed := true }
       else if r.lastSeg ≠ some g then r
       else match r.state with
         | .empty => r
         | .refused => { r with miss := r.miss + 1 }
         | .lost => { r with lost := r.lost + 1 }
         | .active => { lost p.slot with miss := r.miss + 1 }
     let atLimit := r.lastSeg = some g ∧ r.state = .active ∧ x.cfg.missLimit ≤ r.miss + 1
     let missEnd := fun c : Instr => (x.window.isSome ∧ c = .replyWindowExpiry g) ∨ (x.reception = .receiving ∧
       (c = .segmentFrameCut g ∨
         ∃ bytes, c = .segmentFrame g bytes ∧ ∀ r, parseReport bytes = some r → r.slot ≠ p.slot))
     let stops := fun (t : State) (st : AnswerStatus) (body : List Byte) (unheard : Prop) =>
       ((t.seg g).state = .stopped ∧ (t.seg g).poll = none ∧ (t.seg g).sending = none ∧ (t.seg g).window = none ∧
         (t.seg g).probe = false ∧ (t.seg g).pass = none ∧ (t.seg g).reception = .none) ∧
         (∀ i : Slot, i ≠ p.slot → t.slots[i] = if gone i then lost i else s.slots[i]) ∧
         (t.pmg.power = s.pmg.power → List.Forall₂ (fun q q' : PassRecord =>
           if q.isAnswered then q' = q
           else if q.state = .sent then ∃ n, q' = { q with state := .answered st body n }
           else (q.slot = p.slot ∧ unheard → ∃ n, q' = { q with state := .answered .notPresent [] n }) ∧
             (¬(q.slot = p.slot ∧ unheard) → ∃ n, q' = { q with state := .answered .segmentOff [] n }))
             x.records (t.seg g).records)
     s.settled → x.sentWhole → x.state = .running → x.cfg.enable = false → x.poll = some p →
       (∀ c : Instr, missEnd c → ∃ t : State, exec c s = .next t ∧ stops t .noResponse [] atLimit ∧
         t.slots[p.slot] = missed ∧
         ∀ q : Pos, (drops → s.positions[q].fedBy p.slot = true → t.positions[q] = Position.reset) ∧
           ((∃ i, gone i ∧ s.positions[q].losable i) → t.positions[q] = s.lostPosition q) ∧
             (¬(drops ∧ s.positions[q].fedBy p.slot = true) → (∀ i, gone i → s.positions[q].losable i = false) →
               t.positions[q] = s.positions[q])) ∧
       ∀ (bytes : List Byte) (m : Report), x.reception = .receiving → parseReport bytes = some m → m.slot = p.slot →
         let listed := ∃ i : Fin 16, s.node[i].valid = true ∧ s.node[i].serial = m.serial
         let old := r.state ≠ .empty ∧ r.lastSeg = some g ∧ (m.flags.getLsbD 0 = true ∨ r.serial ≠ some m.serial)
         let barred := m.flags.getLsbD 0 = false ∧ r.serial = some m.serial ∧ ¬listed ∧
           (r.state = .active ∨ r.state = .lost)
         ∃ t : State, exec (.segmentFrame g bytes) s = .next t ∧ stops t .ok m.answer (old ∨ barred) ∧
           ¬(t.slots[p.slot].state = .active ∧ t.slots[p.slot].lastSeg = some g) ∧
             ∀ (i : Slot) (q : Pos), gone i ∨ i = p.slot → t.slots[i].state = .lost → t.positions[q].losable i = false)

/-- The miss of a window expiry counted at the polled slot: an ACTIVE slot below the miss limit; at the limit (LOST, its
LIVE and HELD positions SOURCE_LOST with what R10 keeps and clears); a LOST slot below the detach count and at it (EMPTY
with DETACHED, its positions cleared); a REFUSED one below it and at it. -/
def Obligations.MissCounted : Prop :=
  ∀ (s : State) (g : Seg) (p : PollRec),
    let x := s.seg g
    let r := s.slots[p.slot]
    s.settled → x.sentWhole → x.state = .running → x.cfg.enable = true → x.poll = some p → x.window.isSome →
      r.lastSeg = some g → ∃ t : State, exec (.replyWindowExpiry g) s = .next t ∧
        (∀ i : Slot, i ≠ p.slot → t.slots[i] = s.slots[i]) ∧ t.node = s.node ∧
          (s.pmg.power ≠ .parkWatch → t.seg g.other = s.seg g.other) ∧
          (r.state = .active → r.miss + 1 < x.cfg.missLimit →
            t.slots[p.slot] = { r with miss := r.miss + 1 } ∧ t.positions = s.positions) ∧
            (r.state = .active → x.cfg.missLimit ≤ r.miss + 1 →
              t.slots[p.slot] = { r with
                state := .lost, miss := r.miss + 1, lost := 0, events := r.events ||| 4, owed := true } ∧
                (∀ q ∈ (t.seg g).records, q.slot = p.slot → q.state ≠ .queued) ∧
                  ∀ q : Pos, t.positions[q] =
                    if s.positions[q].losable p.slot then s.lostPosition q else s.positions[q]) ∧
              (r.state = .lost → r.lost + 1 < x.cfg.detachCount →
                t.slots[p.slot] = { r with lost := r.lost + 1 } ∧ t.positions = s.positions) ∧
                (r.state = .lost → x.cfg.detachCount ≤ r.lost + 1 →
                  t.slots[p.slot] = { SlotRec.reset with events := r.events ||| 16, owed := true } ∧
                    ∀ q : Pos, t.positions[q] =
                      if s.positions[q].fedBy p.slot then Position.reset else s.positions[q]) ∧
                  (r.state = .refused → r.miss + 1 < x.cfg.detachCount →
                    t.slots[p.slot] = { r with miss := r.miss + 1 } ∧ t.positions = s.positions) ∧
                    (r.state = .refused → x.cfg.detachCount ≤ r.miss + 1 →
                      t.slots[p.slot] = { SlotRec.reset with events := r.events ||| 16, owed := true } ∧
                        ((∀ q : Pos, s.positions[q].fedBy p.slot = false) → t.positions = s.positions))

/-- A good REPORT ends its poll. First the ones that dispatch nothing: with the DETACH lever at an EMPTY slot it changes
no slot, at another it clears the positions the slot fed and the slot goes EMPTY with DETACHED; a stale one clears the
miss count; one with an unlisted serial makes the slot REFUSED, from EMPTY, from ACTIVE or LOST with that serial and
from another serial (SWAPPED), clearing the positions the slot fed, and a slot REFUSED with that serial stays so with
its miss count 0. Then the accepted ones, of a listed serial at a slot EMPTY, REFUSED, LOST, ACTIVE with a new seq, or
holding another serial: the whole slot record, ACTIVE with serial, segment, seq, miss count 0 and its events,
UNMAPPED_SEAT and COUNT_MISMATCH among them; every block within the seat count at the position of its SEATMAP entry,
after a swap over the cleared record, and every other position as it was or cleared; the mirror copy, or MIRROR_DROP at
a full FIFO; the answered records of both segments, these outside PARK_WATCH, where a cleared position may bring SLEEP.
The rank of an answered record is the model's own (log entry 22). -/
def Obligations.ReportHandled : Prop :=
  (∀ (s : State) (g : Seg) (p : PollRec) (bytes : List Byte) (r : Report),
     let x := s.seg g
     let slot := s.slots[r.slot]
     let heard := fun rec' : SlotRec => { s.setSeg g { x.pollOver .ok r.answer with reception := .none } with
       slots := put s.slots r.slot rec' }
     let listed := ∃ i : Fin 16, s.node[i].valid = true ∧ s.node[i].serial = r.serial
     let cleared := fun t : State => ∀ q : Pos, t.positions[q] =
       if s.positions[q].fedBy r.slot then Position.reset else s.positions[q]
     let refusedAs := fun (rec' : SlotRec) (events : BitVec 8) => { rec' with
       state := .refused, serial := some r.serial, lastSeg := some g, lastSeq := none, miss := 0
       events := slot.events ||| events, owed := true }
     s.settled → x.sentWhole → x.state = .running → x.cfg.enable = true → x.poll = some p →
       x.reception = .receiving → parseReport bytes = some r → r.slot = p.slot →
         (r.flags.getLsbD 0 = true → slot.state = .empty → exec (.segmentFrame g bytes) s = .next (heard slot)) ∧
         (r.flags.getLsbD 0 = true → slot.state ≠ .empty → ∃ t : State, exec (.segmentFrame g bytes) s = .next t ∧
           t.slots = put s.slots r.slot { SlotRec.reset with events := slot.events ||| 16, owed := true } ∧
             cleared t) ∧
         (r.flags.getLsbD 0 = false → slot.state = .active → slot.serial = some r.serial →
           slot.lastSeq = some r.seq → listed → ∃ t : State, exec (.segmentFrame g bytes) s = .next t ∧
             t.slots = put s.slots r.slot { slot with miss := 0, lastSeg := some g } ∧ t.positions = s.positions ∧
               t.tkp = s.tkp ∧ (slot.lastSeg = some g → t = heard { slot with miss := 0 })) ∧
         (r.flags.getLsbD 0 = false → slot.state = .refused → slot.serial = some r.serial → ¬listed →
           ∃ t : State, exec (.segmentFrame g bytes) s = .next t ∧
             t.slots = put s.slots r.slot { slot with miss := 0, lastSeg := some g } ∧ t.positions = s.positions ∧
               t.tkp = s.tkp ∧ (slot.lastSeg = some g → t = heard { slot with miss := 0 })) ∧
         (r.flags.getLsbD 0 = false → slot.state = .empty → ¬listed →
           exec (.segmentFrame g bytes) s = .next (heard { refusedAs slot 2 with lost := 0 })) ∧
         (r.flags.getLsbD 0 = false → slot.state = .active ∨ slot.state = .lost → slot.serial = some r.serial →
           ¬listed → ∃ t : State, exec (.segmentFrame g bytes) s = .next t ∧ cleared t ∧
             t.slots = put s.slots r.slot { refusedAs slot 2 with lost := t.slots[r.slot].lost } ∧
               (slot.state = .lost ∨ slot.lost = 0 → t.slots[r.slot].lost = 0) ∧
                 ∀ q ∈ (t.seg g).records, q.slot = r.slot → q.state ≠ .queued) ∧
         (r.flags.getLsbD 0 = false → slot.state ≠ .empty → slot.serial ≠ some r.serial → ¬listed →
           ∃ t : State, exec (.segmentFrame g bytes) s = .next t ∧ cleared t ∧
             t.slots = put s.slots r.slot { refusedAs slot 0x22 with lost := 0 })) ∧
  (∀ (s : State) (g : Seg) (p : PollRec) (bytes : List Byte) (r : Report) (i : Fin 16),
     let x := s.seg g
     let slot := s.slots[r.slot]
     let entry := s.node[i]
     let own := slot.state ≠ .empty ∧ slot.serial = some r.serial
     let swapped := slot.state ≠ .empty ∧ slot.serial ≠ some r.serial
     let takes := fun (k : SeatIx) (j : Fin 24) => k.val < entry.seatCount ∧ k.val < r.blocks.length ∧
       s.seatmap[j].valid = true ∧ s.seatmap[j].slot = r.slot ∧ s.seatmap[j].seat = k
     let unmapped := ∃ k : SeatIx, k.val < entry.seatCount ∧ k.val < r.blocks.length ∧ ∀ j : Fin 24, ¬takes k j
     let added : BitVec 8 := (if swapped then 0x21 else if slot.state = .active then 0
       else if slot.state = .lost then 8 else 1) ||| (if unmapped then 0x40 else 0) |||
         (if r.blocks.length ≠ entry.seatCount then 0x80 else 0)
     let before := fun q : Pos => if swapped ∧ s.positions[q].fedBy r.slot then Position.reset else s.positions[q]
     s.settled → x.sentWhole → x.state = .running → x.cfg.enable = true → x.poll = some p →
       x.reception = .receiving → parseReport bytes = some r → r.slot = p.slot → r.flags.getLsbD 0 = false →
         serialsUnique s.node → entry.valid = true → entry.serial = r.serial →
           ¬(slot.state = .active ∧ own ∧ slot.lastSeq = some r.seq) →
             ∃ t : State, exec (.segmentFrame g bytes) s = .next t ∧
               t.slots = put s.slots r.slot { slot with
                 state := .active, serial := some r.serial, lastSeg := some g, lastSeq := some r.seq, miss := 0
                 lost := if swapped ∨ slot.state = .lost then 0 else slot.lost
                 events := slot.events ||| added, owed := slot.owed || added ≠ 0 } ∧
               (seatsUnique s.seatmap → ∀ (k : SeatIx) (j : Fin 24) (b : Block), takes k j →
                 r.blocks[k.val]? = some b → t.positions[s.seatmap[j].pos] =
                   { s with positions := Vector.ofFn before }.blockTaken s.seatmap[j].pos (.seat r.slot k) b) ∧
               (∀ q : Pos, (∀ (k : SeatIx) (j : Fin 24), takes k j → s.seatmap[j].pos ≠ q) →
                 t.positions[q] = before q) ∧
               (entry.mirror = true → s.tkp.mirror.length < 8 → t.tkp.flags = s.tkp.flags ∧
                 t.tkp.mirror = s.tkp.mirror ++ [{ slot := r.slot, seg := g, serial := r.serial, seq := r.seq
                                                   flags := r.flags, count := r.blocks.length, raw := r.raw }]) ∧
               (entry.mirror = true → 8 ≤ s.tkp.mirror.length → t.tkp.mirror = s.tkp.mirror ∧
                 t.tkp.flags = { s.tkp.flags with mirrorDrop := true }) ∧
               (entry.mirror = false → t.tkp.mirror = s.tkp.mirror ∧ t.tkp.flags = s.tkp.flags) ∧
               t.tkp.replies = s.tkp.replies ∧ t.node = s.node ∧ t.seatmap = s.seatmap ∧
               (t.seg g).poll = none ∧
               (s.pmg.power ≠ .parkWatch → t.cfs = s.cfs ∧ t.lsu = s.lsu ∧
                 List.Forall₂ (fun q q' : PassRecord =>
                   if q.state = .sent then ∃ n, q' = { q with state := .answered .ok r.answer n }
                   else if q.state = .queued ∧ q.slot = r.slot ∧ swapped ∧ slot.lastSeg = some g then
                     ∃ n, q' = { q with state := .answered .notPresent [] n }
                   else q' = q) x.records (t.seg g).records ∧
                   queuedAnswered .notPresent (fun q => decide (slot.state ≠ .empty ∧ slot.lastSeg = some g.other ∧
                     q.slot = r.slot)) (s.seg g.other).records (t.seg g.other).records))

/-- A stuck line on a segment with no poll outstanding: QUEUED records answered SEGMENT_FAULT, LINE_STUCK, FAULT, the
probe timer, every ACTIVE slot of the segment LOST and its LIVE and HELD positions SOURCE_LOST with what R10 keeps. A
stuck line that ends a poll, with a SENT record or without: the miss is counted at the polled slot by R123 to R126, every
other ACTIVE slot of the segment goes LOST, the positions of lost slots SOURCE_LOST, those of a slot dropped at the
detach count cleared, and every record not ANSWERED is answered SEGMENT_FAULT, but the QUEUED ones of a slot that this
miss takes to LOST, which UTR has answered NOT_PRESENT before; with a disable waiting the segment goes STOPPED. The
segment's state and records are stated where the step does not enter SLEEP, which a cleared position may bring in
PARK_WATCH. The order within the end of the poll and the end of a reception are the model's reading (log entries 14 and
15), the rank of the answered SENT record the model's own (log entry 22). -/
def Obligations.LineStuck : Prop :=
  (∀ (s : State) (g : Seg),
     let x := s.seg g
     let gone := fun i : Slot => s.slots[i].state = .active ∧ s.slots[i].lastSeg = some g
     s.settled → x.state = .idle ∨ x.state = .running → x.sending = none → x.poll = none → x.cfg.enable = true →
       ∃ (t : State) (rs : List PassRecord), exec (.lineStuckDetect g) s = .next t ∧
         queuedAnswered .segmentFault (fun _ => true) x.records rs ∧
           t = { s.setSeg g { x with
             records := rs, lineStuck := true, state := .fault, probe := true, pass := none, reception := .none } with
               slots := t.slots, positions := t.positions, chd := t.chd, pnd := { s.pnd with image := t.pnd.image }
               free := t.free } ∧
             (∀ i : Slot, t.slots[i] = if gone i then
               { s.slots[i] with state := .lost, lost := 0, events := s.slots[i].events ||| 4, owed := true }
               else s.slots[i]) ∧
               ∀ q : Pos, ((∃ i, gone i ∧ s.positions[q].losable i) → t.positions[q] = s.lostPosition q) ∧
                 ((∀ i, gone i → s.positions[q].losable i = false) → t.positions[q] = s.positions[q])) ∧
  (∀ (s : State) (g : Seg) (p : PollRec),
     let x := s.seg g
     let r := s.slots[p.slot]
     let gone := fun i : Slot => s.slots[i].state = .active ∧ s.slots[i].lastSeg = some g
     let drops := r.lastSeg = some g ∧ ((r.state = .lost ∧ x.cfg.detachCount ≤ r.lost + 1) ∨
       (r.state = .refused ∧ x.cfg.detachCount ≤ r.miss + 1))
     let atLimit := r.lastSeg = some g ∧ r.state = .active ∧ x.cfg.missLimit ≤ r.miss + 1
     let missed := if drops then { SlotRec.reset with events := r.events ||| 16, owed := true }
       else if r.lastSeg ≠ some g then r
       else match r.state with
         | .empty => r
         | .refused => { r with miss := r.miss + 1 }
         | .lost => { r with lost := r.lost + 1 }
         | .active => { r with
             state := .lost, miss := r.miss + 1, lost := 0, events := r.events ||| 4, owed := true }
     s.settled → x.sentWhole → x.state = .running → x.sending = none → x.poll = some p →
       ∃ t : State, exec (.lineStuckDetect g) s = .next t ∧ (t.seg g).poll = none ∧ (t.seg g).lineStuck = true ∧
         t.slots[p.slot] = missed ∧
         (∀ i : Slot, i ≠ p.slot → t.slots[i] = if gone i then
           { s.slots[i] with state := .lost, lost := 0, events := s.slots[i].events ||| 4, owed := true }
           else s.slots[i]) ∧
         (∀ q : Pos, (drops → s.positions[q].fedBy p.slot = true → t.positions[q] = Position.reset) ∧
           ((∃ i, gone i ∧ s.positions[q].losable i) → t.positions[q] = s.lostPosition q) ∧
             (¬(drops ∧ s.positions[q].fedBy p.slot = true) → (∀ i, gone i → s.positions[q].losable i = false) →
               t.positions[q] = s.positions[q])) ∧
         (t.pmg.power = s.pmg.power → (t.seg g).state = (if x.cfg.enable then .fault else .stopped) ∧
           List.Forall₂ (fun q q' : PassRecord => if q.isAnswered then q' = q
             else if q.state = .queued ∧ q.slot = p.slot ∧ atLimit then
               ∃ n, q' = { q with state := .answered .notPresent [] n }
             else ∃ n, q' = { q with state := .answered .segmentFault [] n }) x.records (t.seg g).records ∧
             ∀ (a b : List PassRecord) (q : PassRecord), x.records = a ++ q :: b → q.state = .sent →
               ((t.seg g).records[a.length]?.map fun q => (q.tag, q.state)) =
                 some (q.tag, .answered .segmentFault [] (x.records.countP PassRecord.isAnswered))))

/-! ### Loads, bands, buckles -/

/-- Cells to load: each corrected cell is the raw value less its offset, 0 below it; the load is floor(S × g / 64); the
footprint counts the corrected cells at or above T_cell; the filter step is floor((L − F) / 2^k) toward minus infinity;
F stays between its old value and L, and F and L lie in 0..16240. -/
def Obligations.LoadArithmetic : Prop :=
  (∀ (cfg : PosCfg) (cells : Vector Count 8),
    let c := fun i : Fin 8 => if cfg.offsets[i].val ≤ cells[i].val then cells[i].val - cfg.offsets[i].val else 0
    let sum := c 0 + c 1 + c 2 + c 3 + c 4 + c 5 + c 6 + c 7
    (64 * loadOf cfg cells ≤ sum * cfg.gain ∧ sum * cfg.gain < 64 * (loadOf cfg cells + 1)) ∧
      (cfg.gain ≤ 127 → loadOf cfg cells ≤ 16240) ∧ footprintOf cfg cells ≤ 8 ∧
        footprintOf cfg cells = (Finset.univ.filter fun i : Fin 8 => cfg.tCell ≤ c i).card) ∧
    ∀ (k : Fin 4) (f l : Nat), f ≤ 16240 → l ≤ 16240 →
      (∃ d : Int, 2 ^ k.val * d ≤ (l : Int) - f ∧ (l : Int) - f < 2 ^ k.val * (d + 1) ∧
        (filterStep k.val f l : Int) = f + d) ∧
        filterStep k.val f l ≤ 16240 ∧ min f l ≤ filterStep k.val f l ∧ filterStep k.val f l ≤ max f l ∧
          (l < f → filterStep k.val f l < f) ∧ (f ≤ l → l - filterStep k.val f l ≤ l - f) ∧
            (k = 0 → filterStep k.val f l = l)

/-- The band of a seeded load by the thresholds; after a filtered load the upward pass, and only if it moves nothing the
downward pass with hysteresis; F of 0 brings EMPTY, F at T3 or above LARGE. The debounce of a reported buckle by the
four lines of R38. -/
def Obligations.BandAndBuckle : Prop :=
  (∀ (cfg : PosCfg) (f : Nat) (b : Band), cfg.lawful →
    (f < cfg.tObj → seedBand cfg f = .empty) ∧
      (cfg.tObj ≤ f → f < cfg.tSmall → seedBand cfg f = .light) ∧
        (cfg.tSmall ≤ f → f < cfg.tAdult → seedBand cfg f = .small) ∧
          (cfg.tAdult ≤ f → seedBand cfg f = .large ∧ moveBand cfg f b = .large) ∧ moveBand cfg 0 b = .empty ∧
            ((∃ u, b.up = some u ∧ u.threshold cfg ≤ f) → moveBand cfg f b = seedBand cfg f) ∧
              ((∀ u, b.up = some u → f < u.threshold cfg) →
                (b = .empty ∨ b.threshold cfg ≤ f + cfg.hyst → moveBand cfg f b = b) ∧
                  (b ≠ .empty → f + cfg.hyst < b.threshold cfg → ∃ d : Band, moveBand cfg f b = d ∧
                    d.code < b.code ∧ (d = .empty ∨ d.threshold cfg ≤ f + cfg.hyst) ∧
                      ∀ m : Band, d.code < m.code → m.code ≤ b.code → f + cfg.hyst < m.threshold cfg))) ∧
    ∀ (reported now : Buckle) (cand : Option Buckle),
      (reported = now → debounce reported now cand = (now, none)) ∧
        (reported ≠ now → cand = none → debounce reported now cand = (now, some reported)) ∧
          (reported ≠ now → cand = some reported → debounce reported now cand = (reported, none)) ∧
            (reported ≠ now → cand ≠ some reported → debounce reported now cand = (now, some reported))

/-! ### Rules, confirmation, blocks -/

/-- The scan of the RULE table in rising order: the class of the matching class rule, or the band default, is the
candidate; the noted ARM rules and the armed ancestors of the matching rules stand at their own windows, every other
entry of the snapshot one lower. -/
def Obligations.RuleEvaluation : Prop :=
  ∀ (rules : Rules) (snap : Vector Nat 24) (p : Pos) (r : Position),
    let scan := scanRules rules snap p r (List.finRange 24)
    let takes := ruleMatches rules snap p r
    (∀ (i : RuleIx) (c : Cls), takes i → rules[i].outcome = some c → candidateOf scan r.band = c) ∧
      ((∀ i : RuleIx, takes i → rules[i].outcome = none) → candidateOf scan r.band = bandDefault r.band) ∧
        ∀ i : RuleIx,
          ((takes i ∧ rules[i].outcome = none) ∨
              (snap[i] ≠ 0 ∧ ∃ m : RuleIx, takes m ∧ i ∈ (chainOf rules 24 m).tail) →
            (armedAfter rules snap scan)[i] = rules[i].window) ∧
            (¬(takes i ∧ rules[i].outcome = none) →
              ¬(snap[i] ≠ 0 ∧ ∃ m : RuleIx, takes m ∧ i ∈ (chainOf rules 24 m).tail) →
                (armedAfter rules snap scan)[i] = snap[i] - 1)

/-- Confirmation: a candidate equal to the confirmed class clears the pending one; another counts, from 1 when it is not
the pending one; at the required count (down-confirm for VACANT and OBJECT, up-confirm for the others) it is confirmed
with notice owed, and a new VACANT empties the armed map. -/
def Obligations.Confirmation : Prop :=
  ∀ (cfg : PosCfg) (r : Position) (c : Cls) (n : Nat),
    let needed := if c = .vacant ∨ c = .object then cfg.downConfirm else cfg.upConfirm
    (c = r.cls → r.confirm cfg c = { r with pending := none }) ∧
      (c ≠ r.cls → (∃ q, r.pending = some q ∧ q.cls = c ∧ n = q.count + 1) ∨
          (n = 1 ∧ ∀ q, r.pending = some q → q.cls ≠ c) →
        (n < needed → r.confirm cfg c = { r with pending := some { cls := c, count := n } }) ∧
          (needed ≤ n → r.confirm cfg c = { r with
            cls := c, pending := none, owed := true
            armed := if c = .vacant then Vector.replicate 24 0 else r.armed }))

/-- One block at a position by its presence and the block's supply-low flag: out of NO_SEAT to LIVE seeded with the
buckle taken as reported and the class UNDETERMINED before evaluation, or to HELD with seed due; elsewhere to HELD with
the buckle stage alone, or to LIVE with F seeded when seed due is set and filtered when it is not. -/
def Obligations.BlockHandled : Prop :=
  ∀ (cfg : PosCfg) (rules : Rules) (p : Pos) (src : Source) (b : Block) (r : Position),
    let n := r.takeBlock cfg rules p src b
    let heard := debounce b.buckle r.buckle r.candidate
    (r.presence = .noSeat → b.supplyLow = true → n = { r with
      presence := .held, source := some src, buckle := b.buckle, candidate := none, seedDue := true, owed := true }) ∧
      (r.presence ≠ .noSeat → b.supplyLow = true → n = { r with
        presence := .held, buckle := heard.1, candidate := heard.2
        owed := r.owed || r.presence ≠ .held || heard.1 ≠ r.buckle }) ∧
        (b.supplyLow = false →
          (n.presence = .live ∧ n.footprint = footprintOf cfg b.cells ∧ n.anchorA = b.anchorA ∧
            n.anchorB = b.anchorB ∧ n.tag = b.tag ∧ n.seedDue = false ∧ n.rem = r.rem) ∧
            (r.presence = .noSeat → n.source = some src ∧ n.load = loadOf cfg b.cells ∧
              n.band = seedBand cfg (loadOf cfg b.cells) ∧ n.buckle = b.buckle ∧ n.candidate = none ∧ n.owed = true) ∧
              (r.presence ≠ .noSeat → n.source = r.source ∧ n.buckle = heard.1 ∧ n.candidate = heard.2 ∧
                n.owed = (r.owed || r.presence ≠ .live || heard.1 ≠ r.buckle || n.cls ≠ r.cls) ∧
                  (r.seedDue = true → n.load = loadOf cfg b.cells ∧ n.band = seedBand cfg n.load) ∧
                    (r.seedDue = false → n.load = filterStep cfg.shift.val r.load (loadOf cfg b.cells) ∧
                      n.band = moveBand cfg n.load r.band)) ∧
                ∃ m : Position, m = { n with
                    armed := r.armed, pending := r.pending, cls := if r.presence = .noSeat then .undetermined else r.cls
                    owed := m.owed } ∧ n = m.classify cfg rules p)

/-! ### Local sense -/

/-- Scans and conversions: the interval's expiry in RUN starts a full scan; a mat result is written and no more; the
ninth conversion of a fitted front seat hands its report to its position and advances its seq, of an unfitted one it
builds none; VHALF moves the supply state by the scan copy. The clauses on reports are stated outside PARK_WATCH, where
a changed class may empty the watch set. The anchor levels are operands by the model's choice (log entry 8), and a scan
start that waits, the model's own (log entry 18), is kept out of the last conversion. -/
def Obligations.LocalScan : Prop :=
  (∀ s : State, s.pmg.power = .run → s.lsu.timer.isSome → s.lsu.remaining = [] →
    exec .scanIntervalExpiry s = .next { s with lsu := s.lsu.scanning }) ∧
    ∀ (s : State) (n : Count) (a b : Bool) (c : Channel) (cs : List Channel),
      let l := s.lsu
      let written := { l with results := put l.results c.index n, remaining := cs }
      let buckle : Buckle := if 100 ≤ n.val ∧ n.val ≤ 399 then .latched
        else if 400 ≤ n.val ∧ n.val ≤ 799 then .opened else .fault
      let front := fun (p : Pos) (x : Lsu) (blk : Block) (t : State) =>
        t = { s with lsu := x, positions := put s.positions p (s.blockTaken p .loc blk)
                     pnd := { s.pnd with image := t.pnd.image }, pmg := { s.pmg with watchSet := t.pmg.watchSet }
                     chd := t.chd, free := t.free }
      l.remaining = c :: cs → cs ≠ [] ∨ l.followUp = false → s.settled →
        ((∀ i : Fin 8, c = .mat0 i ∨ c = .mat1 i →
          exec (.conversionComplete n a b) s = .next { s with lsu := written }) ∧
          (c = .bkl0 ∧ l.cfg.fitted0 = false ∨ c = .bkl1 ∧ l.cfg.fitted1 = false →
            exec (.conversionComplete n a b) s = .next { s with lsu := written })) ∧
          (c = .bkl0 → l.cfg.fitted0 = true → s.pmg.power ≠ .parkWatch → ∃ t : State,
            exec (.conversionComplete n a b) s = .next t ∧ front 0 { written with seq0 := l.seq0 + 1 }
              { cells := Vector.ofFn fun i : Fin 8 => l.results[(⟨i.val, by omega⟩ : Fin 19)]
                buckle := buckle, anchorA := false, anchorB := false, tag := .none, supplyLow := l.low } t) ∧
            (c = .bkl1 → l.cfg.fitted1 = true → s.pmg.power ≠ .parkWatch → ∃ t : State,
              exec (.conversionComplete n a b) s = .next t ∧ front 1 { written with seq1 := l.seq1 + 1 }
                { cells := Vector.ofFn fun i : Fin 8 => l.results[(⟨9 + i.val, by omega⟩ : Fin 19)]
                  buckle := buckle, anchorA := a, anchorB := b, tag := .none, supplyLow := l.low } t) ∧
              ∀ k : LocalCfg, c = .vhalf → l.copy = some k →
                let low := if l.low then decide (n.val < k.threshold + k.hyst) else decide (n.val < k.threshold)
                exec (.conversionComplete n a b) s = .next { s with lsu := { written with
                  lastSupply := n, low := low, supplyLowFlag := l.supplyLowFlag || (low && !l.low) } }

/-! ### Reminders -/

/-- The evaluation of a reminder: the four tests in order, entry by them setting phase, ticks and bursts; then the table
for an unbelted position, with the zero-length stages passed through; and the calls to CHD that leaving and entering an
ON phase make. -/
def Obligations.ReminderEvaluation : Prop :=
  ∀ (i : RemInputs) (r : Reminder),
    let n := (evaluate i r).1
    let prof := i.profile
    let enters := fun st : RemState =>
      n = if st = r.state then r else { state := st, phase := none, ticks := 0, bursts := 0 }
    let seated := i.presence = .live ∨ i.presence = .held
    let needed := prof.required.getLsbD i.cls.code = true
    let heard := fun x : Reminder =>
      if prof.bursts ≤ x.bursts then { x with state := .quiet, phase := none, ticks := 0 }
      else if prof.speedGated = false ∨ i.moving = true then
        { x with state := .audible, phase := some .on, ticks := prof.burstOn }
      else { x with state := .visual, phase := none, ticks := 0 }
    let warned := fun x : Reminder =>
      if prof.visual = 0 then heard x else { x with state := .visual, phase := none, ticks := prof.visual }
    let graced :=
      if prof.grace = 0 then warned { r with bursts := 0 }
      else { r with state := .grace, phase := none, ticks := prof.grace, bursts := 0 }
    (i.ignition = false ∨ i.presence = .noSeat → enters .off) ∧
      (i.ignition = true → i.presence ≠ .noSeat → i.presence = .sourceLost ∨ i.buckle = .fault → enters .suspended) ∧
        (i.ignition = true → seated → i.buckle ≠ .fault → ¬needed → enters .off) ∧
          (i.ignition = true → seated → i.buckle = .latched → needed → enters .belted) ∧
            (i.ignition = true → seated → i.buckle = .opened → needed →
              (r.state = .off ∨ r.state = .suspended → n = graced) ∧
                (r.state = .belted → n = if i.moving then warned r else graced) ∧
                  (r.state = .grace ∨ r.state = .quiet → n = r) ∧
                    (r.state = .visual → n = if r.ticks = 0 then heard r else r) ∧
                      (r.state = .audible → n =
                        if prof.speedGated = true ∧ i.moving = false then
                          { r with state := .visual, phase := none, ticks := 0 }
                        else if prof.bursts ≤ r.bursts then { r with state := .quiet, phase := none, ticks := 0 }
                        else r)) ∧
              (evaluate i r).2 = (if r.sounding ∧ n.state ≠ .audible then [ChimeCall.withdraw] else []) ++
                (if r.state ≠ .audible ∧ n.state = .audible then [.raise prof.tone] else [])

/-- A reminder tick reaches every position and restarts the timer with the period of TIMING. A tick whose evaluation
changes the state counts nothing; otherwise GRACE, VISUAL, ON and GAP drop by one and end at 0, and the other states do
not count. At the end of GRACE under a profile with visual ticks 0 the audible test is made in the same handling. The
order in which CHD takes the events of several positions is free (log entry 4) and not stated. -/
def Obligations.ReminderTick : Prop :=
  (∀ s : State, s.pmg.power = .run → s.tick.isSome → s.settled → ∃ t : State, exec .reminderTick s = .next t ∧
    t = { s with tick := some (tickPeriod s.pmg.timing.tick), positions := t.positions
                 pnd := { s.pnd with image := t.pnd.image }, chd := t.chd, free := t.free } ∧
      ∀ p : Pos, t.positions[p] =
        s.positions[p].reminded (tickReminder (s.remInputs p) s.positions[p].rem).1 ∧
          t.pnd.image[p] = if t.positions[p].rem.state = s.positions[p].rem.state then s.pnd.image[p]
            else t.positions[p].rem.state.glyph) ∧
    ∀ (i : RemInputs) (r : Reminder) (n : Nat),
      let prof := i.profile
      let after := (tickReminder i r).1
      let same := (evaluate i r).1.state = r.state
      (¬same → after = (evaluate i r).1) ∧
        (same → r.state = .off ∨ r.state = .belted ∨ r.state = .quiet ∨ r.state = .suspended → after = r) ∧
          (same → r.state = .grace →
            (r.ticks = n + 2 → after = { r with ticks := n + 1 }) ∧
              (r.ticks = 1 → prof.visual ≠ 0 → after = { r with
                state := .visual, phase := none, ticks := prof.visual }) ∧
                (r.ticks = 1 → prof.visual = 0 →
                  (prof.bursts ≤ r.bursts → after = { r with state := .quiet, phase := none, ticks := 0 }) ∧
                    (r.bursts < prof.bursts →
                      (prof.speedGated = false ∨ i.moving = true → after = { r with
                        state := .audible, phase := some .on, ticks := prof.burstOn }) ∧
                        (prof.speedGated = true → i.moving = false → after = { r with
                          state := .visual, phase := none, ticks := 0 })))) ∧
            (same → r.state = .visual →
              (r.ticks = n + 2 → after = { r with ticks := n + 1 }) ∧
                (r.ticks = 1 → prof.bursts ≤ r.bursts → after = { r with state := .quiet, phase := none, ticks := 0 }) ∧
                  (r.ticks = 1 → r.bursts < prof.bursts →
                    (prof.speedGated = false ∨ i.moving = true → after = { r with
                      state := .audible, phase := some .on, ticks := prof.burstOn }) ∧
                      (prof.speedGated = true → i.moving = false → after = { r with phase := none, ticks := 0 }))) ∧
              (same → r.state = .audible → r.phase = some .on →
                (r.ticks = n + 2 → after = { r with ticks := n + 1 }) ∧
                  (r.ticks = 1 →
                    (prof.bursts ≤ r.bursts + 1 → after = { r with
                      state := .quiet, phase := none, ticks := 0, bursts := r.bursts + 1 }) ∧
                      (r.bursts + 1 < prof.bursts → after = { r with
                        phase := if prof.burstGap = 0 then some .on else some .gap
                        ticks := if prof.burstGap = 0 then prof.burstOn else prof.burstGap
                        bursts := r.bursts + 1 }))) ∧
                (same → r.state = .audible → r.phase = some .gap →
                  (r.ticks = n + 2 → after = { r with ticks := n + 1 }) ∧
                    (r.ticks = 1 → after = { r with phase := some .on, ticks := prof.burstOn }))

/-! ### Chime and panel -/

/-- The grant's changes by the events of R157 at CHD, the release order included, and the tone and the frequency on
CHIME. -/
def Obligations.ChimeGrant : Prop :=
  ∀ (c : Chd) (p : Pos) (tone : Tone),
    c.raisePos p tone = { c with
      requests := put c.requests p (some tone), grant := if c.grant = .none then .pos p else c.grant } ∧
      (c.requests[p] = none → c.withdrawPos p = c) ∧
        (c.requests[p].isSome → ∃ g : Grant,
          c.withdrawPos p = { c with requests := put c.requests p none, grant := g } ∧
            (c.grant ≠ .pos p → g = c.grant) ∧ (c.grant = .pos p → (c.withdrawPos p).grantsNext g)) ∧
          (c.alert = none → c.raiseAlert = { c with alert := some .tone3, grant := .alert }) ∧
            (c.alert.isSome → c.raiseAlert = c ∧ ∃ g : Grant, c.withdrawAlert = { c with alert := none, grant := g } ∧
              (c.grant ≠ .alert → g = c.grant) ∧ (c.grant = .alert → c.withdrawAlert.grantsNext g)) ∧
              (c.grant = .none → c.output = none ∧ c.frequency = none) ∧
                (c.grant = .alert → c.alert = some .tone3 → c.output = some 3) ∧
                  (c.grant = .alert → c.alert = some .tone1 → c.output = some 1) ∧
                    (c.grant = .test → c.output = c.test) ∧ (c.grant = .pos p → c.output = c.requests[p]) ∧
                      (c.output = some tone → c.frequency =
                        some (if tone = 0 then 650 else if tone = 1 then 1300 else if tone = 2 then 2100 else 2900))

/-- The chime's timers: the alert pattern alternates tone 3 and tone 1 while the alert stands, the test goes through
its four quarters whether or not it holds the grant, and at the end of the last it ends and releases a grant it held.
That a timer which does not run changes nothing is the model's choice (log entry 1). -/
def Obligations.ChimeTimers : Prop :=
  ∀ (s : State) (ph : AlertPhase) (q : Fin 4),
    (s.chd.alert = some ph → exec .alertPatternTimer s = .next { s with chd := { s.chd with
      alert := some (if ph = .tone3 then .tone1 else .tone3) } }) ∧
      (s.chd.alert = none → exec .alertPatternTimer s = .next s) ∧
        (s.chd.test = some q → q < 3 → exec .chimeTestQuarter s = .next { s with chd := { s.chd with
          test := some (q + 1) } }) ∧
          (s.chd.test = none → exec .chimeTestQuarter s = .next s ∧ exec .chimeTestEnd s = .next s) ∧
            (s.chd.test = some 3 → ∃ c : Chd, exec .chimeTestEnd s = .next { s with chd := c } ∧
              c = { s.chd with test := none, grant := c.grant } ∧ (s.chd.grant ≠ .test → c.grant = s.chd.grant) ∧
                (s.chd.grant = .test → c.grantsNext c.grant))

/-- The panel's scan: a frame start takes a fresh copy and the test as it runs; a common's slot drives that common and
exactly the lines of the lamps to be lit, at the places of R163 and by the glyphs of R161, the fitted mask, the enable
flag and the test; the duty's end undrives the lines; the flash clock alternates; the test's end shows from the next
frame. A stopped scan takes none of these events. That nothing is driven between a frame start and its first slot, that
a stopped scan changes nothing, and that a frame keeps the test it started with is the model's (log entries 29, 1 and
20). -/
def Obligations.PanelScan : Prop :=
  ∀ (s : State) (k : PanelCfg),
    let n := s.pnd
    let lines := if k.layout = .fourByEight then 8 else 4
    let commons := if k.layout = .fourByEight then 4 else 8
    let shown := fun p : Pos => if k.fitted.getLsbD p.val then n.image[p] else .dark
    let green := fun p : Pos => n.frameTest = true ∨ shown p = .belted ∨ (shown p = .fault ∧ n.flash = .a)
    let red := fun p : Pos => n.frameTest = true ∨ shown p = .unbelted ∨ (shown p = .warn ∧ n.flash = .a) ∨
      (shown p = .fault ∧ n.flash = .b)
    exec .panelTestExpiry s = .next { s with pnd := { n with test := false } } ∧
      (n.scanning = true →
        exec .scanFrameStart s = .next { s with pnd := { n with
          copy := some n.cfg, frameTest := n.test, common := 0, pcom := none, plin := 0 } } ∧
          exec .dutyEnd s = .next { s with pnd := { n with plin := 0 } } ∧
            exec .flashPhase s = .next { s with pnd := { n with flash := if n.flash = .a then .b else .a } } ∧
              (n.copy = some k → n.common < commons →
                (k.enable = false → n.frameTest = false → exec .commonSlot s = .next { s with pnd := { n with
                  common := n.common + 1, pcom := none, plin := 0 } }) ∧
                  (k.enable = true ∨ n.frameTest = true → ∃ (c : Fin 8) (driven : BitVec 8), c.val = n.common ∧
                    exec .commonSlot s = .next { s with pnd := { n with
                      common := n.common + 1, pcom := some c, plin := driven } } ∧
                      (∀ p : Pos, 2 * p.val / lines = n.common →
                        (driven.getLsbD (2 * p.val % lines) = true ↔ green p) ∧
                          (driven.getLsbD ((2 * p.val + 1) % lines) = true ↔ red p)) ∧
                        ∀ line, lines ≤ line → driven.getLsbD line = false))) ∧
        (n.scanning = false → exec .scanFrameStart s = .next s ∧ exec .commonSlot s = .next s ∧
          exec .dutyEnd s = .next s ∧ exec .flashPhase s = .next s)

/-! ### Park watch -/

/-- The watch's timers in PARK_WATCH: a watch-interval event starts a pass on each segment that is RUNNING or IDLE and a
scan of the watched front seats; the dwell counts in WATCHING and at its end raises the alert; the repeat owes ALERT
again; the elapsed minutes end at the watch max in SLEEP with WATCH_EXPIRED. What the model adds: a stopped dwell
timer's tick changes nothing (log entry 1), the pointer follows the pass and the flag of a moved head is cleared (log
entries 16 and 17), a scan start in a scan waits (log entry 18), an event during a pass starts it afresh (log entry 23);
at entry to SLEEP the stopped panel's slot counter is 8 and its flash phase kept (log entry 6), a segment frame in
reception is given up (log entry 15), a waiting scan start is dropped (log entry 18), and a NODEANS being sent removes
no record at its completion (log entry 24). -/
def Obligations.WatchTimers : Prop :=
  ∀ s : State, s.pmg.power = .parkWatch →
    let m := s.pmg
    let passes := fun g : Segment => if g.state = .running ∨ g.state = .idle then
      { g with state := .running, pointer := g.cfg.head, headMoved := false
               pass := some { next := some g.cfg.head, visited := [], polled := false } } else g
    let alerted := { m with
      alertNumber := min 255 (m.alertNumber + 1), alertOwed := true, alertRepeat := some m.timing.alertRepeat }
    (m.interval.isSome → exec .watchIntervalExpiry s = .next { s with
      sga := passes s.sga, sgb := passes s.sgb, pmg := { m with interval := some m.timing.watchInterval }
      lsu := if 0 ∉ m.watchSet ∧ 1 ∉ m.watchSet then s.lsu
        else if s.lsu.remaining ≠ [] then { s.lsu with followUp := true }
        else { s.lsu with
          copy := some s.lsu.cfg, followUp := false, timer := none
          remaining := scanChannels (0 ∈ m.watchSet && s.lsu.cfg.fitted0) (1 ∈ m.watchSet && s.lsu.cfg.fitted1) } }) ∧
      (m.dwellTimer = true → m.sub = some .watching →
        (m.dwell + 1 < m.timing.dwell → exec .dwellTick s = .next { s with pmg := { m with dwell := m.dwell + 1 } }) ∧
          (m.timing.dwell ≤ m.dwell + 1 → exec .dwellTick s = .next { s with
            pmg := { alerted with dwell := m.dwell + 1, sub := some .alerting }
            chd := if s.chd.alert.isSome then s.chd
              else { s.chd with alert := some .tone3, grant := .alert } })) ∧
        (m.dwellTimer = false ∨ m.sub ≠ some .watching → exec .dwellTick s = .next s) ∧
          (m.sub = some .alerting → m.alertRepeat.isSome → exec .alertRepeatExpiry s = .next { s with
            pmg := alerted }) ∧
            (m.elapsedTimer = true →
              (m.elapsed + 1 < m.timing.watchMax →
                exec .watchElapsedTick s = .next { s with pmg := { m with elapsed := m.elapsed + 1 } }) ∧
                (m.timing.watchMax ≤ m.elapsed + 1 → exec .watchElapsedTick s = .next
                  { s with pmg := { m with causes := { m.causes with watchExpired := true } } }.asleep))

/-- A watched position leaves the watch set when its presence becomes NO_SEAT, here by an invalidation of its SEATMAP
entry, and when its class becomes VACANT, OBJECT or CHILD_SEAT_EMPTY, here by the driver's local report; the last one to
leave brings SLEEP, whatever the sub-state. That SLEEP is entered at the end of the step and that the anchor levels are
operands is the model's choice (log entries 13 and 8). -/
def Obligations.LastWatchedPositionSleeps : Prop :=
  (∀ (s : State) (tag b1 b2 b3 : Byte) (i : Fin 24) (p : Pos), s.takes → s.settled → s.pmg.power = .parkWatch →
    s.cfs.protects .seatmap = false → s.seatmap[i].valid = true → s.seatmap[i].pos = p →
      s.positions[p].presence ≠ .noSeat →
        ∃ t : State, exec (.tblwrSeatmap tag (byte i.val) [0, b1, b2, b3]) s = .next t ∧
          t.positions = put s.positions p Position.reset ∧
            t.tkp.replies = s.tkp.replies ++ [Reply.mk tag 0x02 .ok [2, byte i.val, 0, 0, 0, 0]] ∧
              t.pmg.watchSet = (s.pmg.watchSet.filter fun q => q ≠ p) ∧
                ((∃ q ∈ s.pmg.watchSet, q ≠ p) → t.pmg = { s.pmg with watchSet := t.pmg.watchSet }) ∧
                  ((∀ q ∈ s.pmg.watchSet, q = p) → t.pmg.power = .sleep ∧ t.pmg.sub = none ∧ t.chd = Chd.reset ∧
                    t.sga.state = .stopped ∧ t.sgb.state = .stopped ∧ t.tkp.rx = .off)) ∧
    ∀ (s : State) (n : Count) (a b : Bool) (cs : List Channel), s.settled → s.pmg.power = .parkWatch →
      s.lsu.remaining = .bkl0 :: cs → s.lsu.cfg.fitted0 = true → cs ≠ [] →
        ∃ t : State, exec (.conversionComplete n a b) s = .next t ∧
          ((t.positions[(0 : Pos)].cls = .vacant ∨ t.positions[(0 : Pos)].cls = .object ∨
              t.positions[(0 : Pos)].cls = .childSeatEmpty) →
            t.positions[(0 : Pos)].cls ≠ s.positions[(0 : Pos)].cls →
              t.pmg.watchSet = (s.pmg.watchSet.filter fun q => q ≠ 0) ∧
                ((∀ q ∈ s.pmg.watchSet, q = 0) → t.pmg.power = .sleep) ∧
                  ((∃ q ∈ s.pmg.watchSet, q ≠ 0) → t.pmg.power = .parkWatch)) ∧
            (t.positions[(0 : Pos)].cls = s.positions[(0 : Pos)].cls ∨ t.positions[(0 : Pos)].cls = .smallOccupant ∨
              t.positions[(0 : Pos)].cls = .adult ∨ t.positions[(0 : Pos)].cls = .childSeatOccupied ∨
                t.positions[(0 : Pos)].cls = .undetermined → t.pmg = s.pmg)

/-! ### What every step keeps -/

/-- Every step keeps the places of the FIFOs and of the records. -/
def Obligations.StepKeepsCapacities : Prop :=
  ∀ s t : State, s.capacities → step s = .next t → t.capacities

/-- Every step keeps the law of SENT records and the law of the poll on both segments. -/
def Obligations.StepKeepsSegmentLaws : Prop :=
  ∀ s t : State, step s = .next t → (s.sentWhole → t.sentWhole) ∧ (s.pollsWhole → t.pollsWhole)

/-- Every step keeps the law of the watch set, and the laws of ignition, reminders and glyphs together. Between a hard
reset and the end of the load the law of the ignition rests on the ignition that the model takes as off there (log entry
6); that no chime event is on its way between steps is about the model's own field (log entry 21). -/
def Obligations.StepKeepsPowerLaws : Prop :=
  ∀ s t : State, step s = .next t →
    (s.watchWhole → t.watchWhole) ∧ (s.ignitionWhole ∧ s.panelWhole → t.ignitionWhole ∧ t.panelWhole)

/-- Every step keeps the law of the grant, and with the ignition's law the law that a position's request stands exactly
in an ON phase. That law rests on the ignition taken as off in STARTING (log entry 6), and includes that the model's own
field of chime events is empty between steps (log entry 21). -/
def Obligations.StepKeepsChimeLaws : Prop :=
  ∀ s t : State, step s = .next t → (s.chd.whole → t.chd.whole) ∧ (s.requestsWhole → t.requestsWhole)

/-- Every step keeps the laws of the tables: no duplicates, chains of at most 4 rules, lawful POSCFG entries and the
range of F. -/
def Obligations.StepKeepsTableLaws : Prop :=
  ∀ s t : State, step s = .next t →
    (s.mapsWhole → t.mapsWhole) ∧ (s.rulesWhole → t.rulesWhole) ∧ (s.loadsWhole → t.loadsWhole)

/-- Every step keeps the laws of the records: positions, pending counts, armed maps, slots. -/
def Obligations.StepKeepsRecordLaws : Prop :=
  ∀ s t : State, step s = .next t →
    (s.positionsWhole → t.positionsWhole) ∧ (s.pendingWhole → t.pendingWhole) ∧ (s.armedWhole → t.armedWhole) ∧
      (s.slotsWhole → t.slotsWhole)

/-- The state after reset meets every law. It rests on the state that the model takes as the one after reset: the store
erased (log entry 5), the ignition off while STARTING (log entry 6), the load made in the step of the reset (log entry
7), and the model's own field of chime events empty (log entry 21). -/
def Obligations.ResetMeetsLaws : Prop :=
  State.reset.capacities ∧ State.reset.sentWhole ∧ State.reset.pollsWhole ∧ State.reset.watchWhole ∧
    State.reset.ignitionWhole ∧ State.reset.panelWhole ∧ State.reset.chd.whole ∧ State.reset.requestsWhole ∧
      State.reset.mapsWhole ∧ State.reset.rulesWhole ∧ State.reset.loadsWhole ∧ State.reset.positionsWhole ∧
        State.reset.pendingWhole ∧ State.reset.armedWhole ∧ State.reset.slotsWhole

/-! ### Frames on the trunk -/

/-- The frame in which a well-formed command comes is read back as that command: no byte of its tag, index, entry or
payload is lost, and the check holds. No step runs `trunkCommand`: commands come into the queue from outside, and it says
which one a frame on TRK_RX stands for (log entry 27). -/
def Obligations.FramesDecode : Prop :=
  ∀ (i : Instr) (f : List Byte), i.wellFormed = true → commandFrame i = some f → trunkCommand f = some i
end

