-- ==== Sys2Proof/Laws/State.lean ====
section
/-! SUPPORT. One lemma per field per named update of the state, and the reads of tables and segments after a write. -/

namespace Sys2Proof

theorem put_get_self {α : Type} {n : Nat} (v : Vector α n) (i : Fin n) (x : α) : (put v i x)[i] = x := by
  simp [put]

theorem put_get_ne {α : Type} {n : Nat} (v : Vector α n) {i j : Fin n} (x : α) (h : j ≠ i) :
    (put v i x)[j] = v[j] := by
  have h' : i.val ≠ j.val := fun e => h (Fin.ext e.symm)
  simp [put, h']

/-- Every read of a table after one entry is replaced. -/
@[simp] theorem put_get {α : Type} {n : Nat} (v : Vector α n) (i j : Fin n) (x : α) :
    (put v i x)[j.val] = if j = i then x else v[j.val] := by
  simp only [put, Vector.getElem_set, Fin.ext_iff, eq_comm]

namespace Machine

@[simp] theorem State.setSeg_seg (s : State) (g : Seg) (x : Segment) : (s.setSeg g x).seg g = x := by
  cases g <;> rfl

theorem State.setSeg_seg_ne (s : State) {g h : Seg} (x : Segment) (e : h ≠ g) : (s.setSeg g x).seg h = s.seg h := by
  cases g <;> cases h <;> first | rfl | exact absurd rfl e

@[simp] theorem State.setSeg_self (s : State) (g : Seg) : s.setSeg g (s.seg g) = s := by cases g <;> rfl

@[simp] theorem State.modSeg_seg (s : State) (g : Seg) (f : Segment → Segment) : (s.modSeg g f).seg g = f (s.seg g) := by
  cases g <;> rfl

theorem State.modSeg_seg_ne (s : State) {g h : Seg} (f : Segment → Segment) (e : h ≠ g) :
    (s.modSeg g f).seg h = s.seg h := State.setSeg_seg_ne s _ e

@[simp] theorem State.setSeg_tkp (s : State) (g : Seg) (x : Segment) : (s.setSeg g x).tkp = s.tkp := by cases g <;> rfl
@[simp] theorem State.setSeg_slots (s : State) (g : Seg) (x : Segment) : (s.setSeg g x).slots = s.slots := by cases g <;> rfl
@[simp] theorem State.setSeg_node (s : State) (g : Seg) (x : Segment) : (s.setSeg g x).node = s.node := by cases g <;> rfl
@[simp] theorem State.setSeg_lsu (s : State) (g : Seg) (x : Segment) : (s.setSeg g x).lsu = s.lsu := by cases g <;> rfl
@[simp] theorem State.setSeg_positions (s : State) (g : Seg) (x : Segment) : (s.setSeg g x).positions = s.positions := by cases g <;> rfl
@[simp] theorem State.setSeg_seatmap (s : State) (g : Seg) (x : Segment) : (s.setSeg g x).seatmap = s.seatmap := by cases g <;> rfl
@[simp] theorem State.setSeg_poscfg (s : State) (g : Seg) (x : Segment) : (s.setSeg g x).poscfg = s.poscfg := by cases g <;> rfl
@[simp] theorem State.setSeg_rules (s : State) (g : Seg) (x : Segment) : (s.setSeg g x).rules = s.rules := by cases g <;> rfl
@[simp] theorem State.setSeg_profiles (s : State) (g : Seg) (x : Segment) : (s.setSeg g x).profiles = s.profiles := by cases g <;> rfl
@[simp] theorem State.setSeg_tick (s : State) (g : Seg) (x : Segment) : (s.setSeg g x).tick = s.tick := by cases g <;> rfl
@[simp] theorem State.setSeg_chd (s : State) (g : Seg) (x : Segment) : (s.setSeg g x).chd = s.chd := by cases g <;> rfl
@[simp] theorem State.setSeg_pnd (s : State) (g : Seg) (x : Segment) : (s.setSeg g x).pnd = s.pnd := by cases g <;> rfl
@[simp] theorem State.setSeg_pmg (s : State) (g : Seg) (x : Segment) : (s.setSeg g x).pmg = s.pmg := by cases g <;> rfl
@[simp] theorem State.setSeg_cfs (s : State) (g : Seg) (x : Segment) : (s.setSeg g x).cfs = s.cfs := by cases g <;> rfl
@[simp] theorem State.setSeg_toChime (s : State) (g : Seg) (x : Segment) : (s.setSeg g x).toChime = s.toChime := by cases g <;> rfl
@[simp] theorem State.setSeg_free (s : State) (g : Seg) (x : Segment) : (s.setSeg g x).free = s.free := by cases g <;> rfl
@[simp] theorem State.setSeg_pending (s : State) (g : Seg) (x : Segment) : (s.setSeg g x).pending = s.pending := by cases g <;> rfl

@[simp] theorem State.modSeg_tkp (s : State) (g : Seg) (f : Segment → Segment) : (s.modSeg g f).tkp = s.tkp := by cases g <;> rfl
@[simp] theorem State.modSeg_slots (s : State) (g : Seg) (f : Segment → Segment) : (s.modSeg g f).slots = s.slots := by cases g <;> rfl
@[simp] theorem State.modSeg_node (s : State) (g : Seg) (f : Segment → Segment) : (s.modSeg g f).node = s.node := by cases g <;> rfl
@[simp] theorem State.modSeg_lsu (s : State) (g : Seg) (f : Segment → Segment) : (s.modSeg g f).lsu = s.lsu := by cases g <;> rfl
@[simp] theorem State.modSeg_positions (s : State) (g : Seg) (f : Segment → Segment) : (s.modSeg g f).positions = s.positions := by cases g <;> rfl
@[simp] theorem State.modSeg_seatmap (s : State) (g : Seg) (f : Segment → Segment) : (s.modSeg g f).seatmap = s.seatmap := by cases g <;> rfl
@[simp] theorem State.modSeg_poscfg (s : State) (g : Seg) (f : Segment → Segment) : (s.modSeg g f).poscfg = s.poscfg := by cases g <;> rfl
@[simp] theorem State.modSeg_rules (s : State) (g : Seg) (f : Segment → Segment) : (s.modSeg g f).rules = s.rules := by cases g <;> rfl
@[simp] theorem State.modSeg_profiles (s : State) (g : Seg) (f : Segment → Segment) : (s.modSeg g f).profiles = s.profiles := by cases g <;> rfl
@[simp] theorem State.modSeg_tick (s : State) (g : Seg) (f : Segment → Segment) : (s.modSeg g f).tick = s.tick := by cases g <;> rfl
@[simp] theorem State.modSeg_chd (s : State) (g : Seg) (f : Segment → Segment) : (s.modSeg g f).chd = s.chd := by cases g <;> rfl
@[simp] theorem State.modSeg_pnd (s : State) (g : Seg) (f : Segment → Segment) : (s.modSeg g f).pnd = s.pnd := by cases g <;> rfl
@[simp] theorem State.modSeg_pmg (s : State) (g : Seg) (f : Segment → Segment) : (s.modSeg g f).pmg = s.pmg := by cases g <;> rfl
@[simp] theorem State.modSeg_cfs (s : State) (g : Seg) (f : Segment → Segment) : (s.modSeg g f).cfs = s.cfs := by cases g <;> rfl
@[simp] theorem State.modSeg_toChime (s : State) (g : Seg) (f : Segment → Segment) : (s.modSeg g f).toChime = s.toChime := by cases g <;> rfl
@[simp] theorem State.modSeg_free (s : State) (g : Seg) (f : Segment → Segment) : (s.modSeg g f).free = s.free := by cases g <;> rfl
@[simp] theorem State.modSeg_pending (s : State) (g : Seg) (f : Segment → Segment) : (s.modSeg g f).pending = s.pending := by cases g <;> rfl

@[simp] theorem State.setPos_tkp (s : State) (p : Pos) (r : Position) : (s.setPos p r).tkp = s.tkp := rfl
@[simp] theorem State.setPos_sga (s : State) (p : Pos) (r : Position) : (s.setPos p r).sga = s.sga := rfl
@[simp] theorem State.setPos_sgb (s : State) (p : Pos) (r : Position) : (s.setPos p r).sgb = s.sgb := rfl
@[simp] theorem State.setPos_slots (s : State) (p : Pos) (r : Position) : (s.setPos p r).slots = s.slots := rfl
@[simp] theorem State.setPos_node (s : State) (p : Pos) (r : Position) : (s.setPos p r).node = s.node := rfl
@[simp] theorem State.setPos_lsu (s : State) (p : Pos) (r : Position) : (s.setPos p r).lsu = s.lsu := rfl
@[simp] theorem State.setPos_seatmap (s : State) (p : Pos) (r : Position) : (s.setPos p r).seatmap = s.seatmap := rfl
@[simp] theorem State.setPos_poscfg (s : State) (p : Pos) (r : Position) : (s.setPos p r).poscfg = s.poscfg := rfl
@[simp] theorem State.setPos_rules (s : State) (p : Pos) (r : Position) : (s.setPos p r).rules = s.rules := rfl
@[simp] theorem State.setPos_profiles (s : State) (p : Pos) (r : Position) : (s.setPos p r).profiles = s.profiles := rfl
@[simp] theorem State.setPos_tick (s : State) (p : Pos) (r : Position) : (s.setPos p r).tick = s.tick := rfl
@[simp] theorem State.setPos_chd (s : State) (p : Pos) (r : Position) : (s.setPos p r).chd = s.chd := rfl
@[simp] theorem State.setPos_pnd (s : State) (p : Pos) (r : Position) : (s.setPos p r).pnd = s.pnd := rfl
@[simp] theorem State.setPos_pmg (s : State) (p : Pos) (r : Position) : (s.setPos p r).pmg = s.pmg := rfl
@[simp] theorem State.setPos_cfs (s : State) (p : Pos) (r : Position) : (s.setPos p r).cfs = s.cfs := rfl
@[simp] theorem State.setPos_toChime (s : State) (p : Pos) (r : Position) : (s.setPos p r).toChime = s.toChime := rfl
@[simp] theorem State.setPos_free (s : State) (p : Pos) (r : Position) : (s.setPos p r).free = s.free := rfl
@[simp] theorem State.setPos_pending (s : State) (p : Pos) (r : Position) : (s.setPos p r).pending = s.pending := rfl

@[simp] theorem State.setSlot_tkp (s : State) (i : Slot) (r : SlotRec) : (s.setSlot i r).tkp = s.tkp := rfl
@[simp] theorem State.setSlot_sga (s : State) (i : Slot) (r : SlotRec) : (s.setSlot i r).sga = s.sga := rfl
@[simp] theorem State.setSlot_sgb (s : State) (i : Slot) (r : SlotRec) : (s.setSlot i r).sgb = s.sgb := rfl
@[simp] theorem State.setSlot_node (s : State) (i : Slot) (r : SlotRec) : (s.setSlot i r).node = s.node := rfl
@[simp] theorem State.setSlot_lsu (s : State) (i : Slot) (r : SlotRec) : (s.setSlot i r).lsu = s.lsu := rfl
@[simp] theorem State.setSlot_positions (s : State) (i : Slot) (r : SlotRec) : (s.setSlot i r).positions = s.positions := rfl
@[simp] theorem State.setSlot_seatmap (s : State) (i : Slot) (r : SlotRec) : (s.setSlot i r).seatmap = s.seatmap := rfl
@[simp] theorem State.setSlot_poscfg (s : State) (i : Slot) (r : SlotRec) : (s.setSlot i r).poscfg = s.poscfg := rfl
@[simp] theorem State.setSlot_rules (s : State) (i : Slot) (r : SlotRec) : (s.setSlot i r).rules = s.rules := rfl
@[simp] theorem State.setSlot_profiles (s : State) (i : Slot) (r : SlotRec) : (s.setSlot i r).profiles = s.profiles := rfl
@[simp] theorem State.setSlot_tick (s : State) (i : Slot) (r : SlotRec) : (s.setSlot i r).tick = s.tick := rfl
@[simp] theorem State.setSlot_chd (s : State) (i : Slot) (r : SlotRec) : (s.setSlot i r).chd = s.chd := rfl
@[simp] theorem State.setSlot_pnd (s : State) (i : Slot) (r : SlotRec) : (s.setSlot i r).pnd = s.pnd := rfl
@[simp] theorem State.setSlot_pmg (s : State) (i : Slot) (r : SlotRec) : (s.setSlot i r).pmg = s.pmg := rfl
@[simp] theorem State.setSlot_cfs (s : State) (i : Slot) (r : SlotRec) : (s.setSlot i r).cfs = s.cfs := rfl
@[simp] theorem State.setSlot_toChime (s : State) (i : Slot) (r : SlotRec) : (s.setSlot i r).toChime = s.toChime := rfl
@[simp] theorem State.setSlot_free (s : State) (i : Slot) (r : SlotRec) : (s.setSlot i r).free = s.free := rfl
@[simp] theorem State.setSlot_pending (s : State) (i : Slot) (r : SlotRec) : (s.setSlot i r).pending = s.pending := rfl

@[simp] theorem State.modTkp_tkp (s : State) (f : Tkp → Tkp) :
    (s.modTkp f).tkp = f s.tkp := rfl
@[simp] theorem State.modTkp_sga (s : State) (f : Tkp → Tkp) : (s.modTkp f).sga = s.sga := rfl
@[simp] theorem State.modTkp_sgb (s : State) (f : Tkp → Tkp) : (s.modTkp f).sgb = s.sgb := rfl
@[simp] theorem State.modTkp_slots (s : State) (f : Tkp → Tkp) : (s.modTkp f).slots = s.slots := rfl
@[simp] theorem State.modTkp_node (s : State) (f : Tkp → Tkp) : (s.modTkp f).node = s.node := rfl
@[simp] theorem State.modTkp_lsu (s : State) (f : Tkp → Tkp) : (s.modTkp f).lsu = s.lsu := rfl
@[simp] theorem State.modTkp_positions (s : State) (f : Tkp → Tkp) : (s.modTkp f).positions = s.positions := rfl
@[simp] theorem State.modTkp_seatmap (s : State) (f : Tkp → Tkp) : (s.modTkp f).seatmap = s.seatmap := rfl
@[simp] theorem State.modTkp_poscfg (s : State) (f : Tkp → Tkp) : (s.modTkp f).poscfg = s.poscfg := rfl
@[simp] theorem State.modTkp_rules (s : State) (f : Tkp → Tkp) : (s.modTkp f).rules = s.rules := rfl
@[simp] theorem State.modTkp_profiles (s : State) (f : Tkp → Tkp) : (s.modTkp f).profiles = s.profiles := rfl
@[simp] theorem State.modTkp_tick (s : State) (f : Tkp → Tkp) : (s.modTkp f).tick = s.tick := rfl
@[simp] theorem State.modTkp_chd (s : State) (f : Tkp → Tkp) : (s.modTkp f).chd = s.chd := rfl
@[simp] theorem State.modTkp_pnd (s : State) (f : Tkp → Tkp) : (s.modTkp f).pnd = s.pnd := rfl
@[simp] theorem State.modTkp_pmg (s : State) (f : Tkp → Tkp) : (s.modTkp f).pmg = s.pmg := rfl
@[simp] theorem State.modTkp_cfs (s : State) (f : Tkp → Tkp) : (s.modTkp f).cfs = s.cfs := rfl
@[simp] theorem State.modTkp_toChime (s : State) (f : Tkp → Tkp) : (s.modTkp f).toChime = s.toChime := rfl
@[simp] theorem State.modTkp_free (s : State) (f : Tkp → Tkp) : (s.modTkp f).free = s.free := rfl
@[simp] theorem State.modTkp_pending (s : State) (f : Tkp → Tkp) : (s.modTkp f).pending = s.pending := rfl

@[simp] theorem State.modPmg_tkp (s : State) (f : Pmg → Pmg) : (s.modPmg f).tkp = s.tkp := rfl
@[simp] theorem State.modPmg_sga (s : State) (f : Pmg → Pmg) : (s.modPmg f).sga = s.sga := rfl
@[simp] theorem State.modPmg_sgb (s : State) (f : Pmg → Pmg) : (s.modPmg f).sgb = s.sgb := rfl
@[simp] theorem State.modPmg_slots (s : State) (f : Pmg → Pmg) : (s.modPmg f).slots = s.slots := rfl
@[simp] theorem State.modPmg_node (s : State) (f : Pmg → Pmg) : (s.modPmg f).node = s.node := rfl
@[simp] theorem State.modPmg_lsu (s : State) (f : Pmg → Pmg) : (s.modPmg f).lsu = s.lsu := rfl
@[simp] theorem State.modPmg_positions (s : State) (f : Pmg → Pmg) : (s.modPmg f).positions = s.positions := rfl
@[simp] theorem State.modPmg_seatmap (s : State) (f : Pmg → Pmg) : (s.modPmg f).seatmap = s.seatmap := rfl
@[simp] theorem State.modPmg_poscfg (s : State) (f : Pmg → Pmg) : (s.modPmg f).poscfg = s.poscfg := rfl
@[simp] theorem State.modPmg_rules (s : State) (f : Pmg → Pmg) : (s.modPmg f).rules = s.rules := rfl
@[simp] theorem State.modPmg_profiles (s : State) (f : Pmg → Pmg) : (s.modPmg f).profiles = s.profiles := rfl
@[simp] theorem State.modPmg_tick (s : State) (f : Pmg → Pmg) : (s.modPmg f).tick = s.tick := rfl
@[simp] theorem State.modPmg_chd (s : State) (f : Pmg → Pmg) : (s.modPmg f).chd = s.chd := rfl
@[simp] theorem State.modPmg_pnd (s : State) (f : Pmg → Pmg) : (s.modPmg f).pnd = s.pnd := rfl
@[simp] theorem State.modPmg_pmg (s : State) (f : Pmg → Pmg) :
    (s.modPmg f).pmg = f s.pmg := rfl
@[simp] theorem State.modPmg_cfs (s : State) (f : Pmg → Pmg) : (s.modPmg f).cfs = s.cfs := rfl
@[simp] theorem State.modPmg_toChime (s : State) (f : Pmg → Pmg) : (s.modPmg f).toChime = s.toChime := rfl
@[simp] theorem State.modPmg_free (s : State) (f : Pmg → Pmg) : (s.modPmg f).free = s.free := rfl
@[simp] theorem State.modPmg_pending (s : State) (f : Pmg → Pmg) : (s.modPmg f).pending = s.pending := rfl

@[simp] theorem State.modFlags_tkp (s : State) (f : TkpFlags → TkpFlags) :
    (s.modFlags f).tkp = { s.tkp with flags := f s.tkp.flags } := rfl
@[simp] theorem State.modFlags_sga (s : State) (f : TkpFlags → TkpFlags) : (s.modFlags f).sga = s.sga := rfl
@[simp] theorem State.modFlags_sgb (s : State) (f : TkpFlags → TkpFlags) : (s.modFlags f).sgb = s.sgb := rfl
@[simp] theorem State.modFlags_slots (s : State) (f : TkpFlags → TkpFlags) : (s.modFlags f).slots = s.slots := rfl
@[simp] theorem State.modFlags_node (s : State) (f : TkpFlags → TkpFlags) : (s.modFlags f).node = s.node := rfl
@[simp] theorem State.modFlags_lsu (s : State) (f : TkpFlags → TkpFlags) : (s.modFlags f).lsu = s.lsu := rfl
@[simp] theorem State.modFlags_positions (s : State) (f : TkpFlags → TkpFlags) : (s.modFlags f).positions = s.positions := rfl
@[simp] theorem State.modFlags_seatmap (s : State) (f : TkpFlags → TkpFlags) : (s.modFlags f).seatmap = s.seatmap := rfl
@[simp] theorem State.modFlags_poscfg (s : State) (f : TkpFlags → TkpFlags) : (s.modFlags f).poscfg = s.poscfg := rfl
@[simp] theorem State.modFlags_rules (s : State) (f : TkpFlags → TkpFlags) : (s.modFlags f).rules = s.rules := rfl
@[simp] theorem State.modFlags_profiles (s : State) (f : TkpFlags → TkpFlags) : (s.modFlags f).profiles = s.profiles := rfl
@[simp] theorem State.modFlags_tick (s : State) (f : TkpFlags → TkpFlags) : (s.modFlags f).tick = s.tick := rfl
@[simp] theorem State.modFlags_chd (s : State) (f : TkpFlags → TkpFlags) : (s.modFlags f).chd = s.chd := rfl
@[simp] theorem State.modFlags_pnd (s : State) (f : TkpFlags → TkpFlags) : (s.modFlags f).pnd = s.pnd := rfl
@[simp] theorem State.modFlags_pmg (s : State) (f : TkpFlags → TkpFlags) : (s.modFlags f).pmg = s.pmg := rfl
@[simp] theorem State.modFlags_cfs (s : State) (f : TkpFlags → TkpFlags) : (s.modFlags f).cfs = s.cfs := rfl
@[simp] theorem State.modFlags_toChime (s : State) (f : TkpFlags → TkpFlags) : (s.modFlags f).toChime = s.toChime := rfl
@[simp] theorem State.modFlags_free (s : State) (f : TkpFlags → TkpFlags) : (s.modFlags f).free = s.free := rfl
@[simp] theorem State.modFlags_pending (s : State) (f : TkpFlags → TkpFlags) : (s.modFlags f).pending = s.pending := rfl

@[simp] theorem State.modCfs_tkp (s : State) (f : Cfs → Cfs) : (s.modCfs f).tkp = s.tkp := rfl
@[simp] theorem State.modCfs_sga (s : State) (f : Cfs → Cfs) : (s.modCfs f).sga = s.sga := rfl
@[simp] theorem State.modCfs_sgb (s : State) (f : Cfs → Cfs) : (s.modCfs f).sgb = s.sgb := rfl
@[simp] theorem State.modCfs_slots (s : State) (f : Cfs → Cfs) : (s.modCfs f).slots = s.slots := rfl
@[simp] theorem State.modCfs_node (s : State) (f : Cfs → Cfs) : (s.modCfs f).node = s.node := rfl
@[simp] theorem State.modCfs_lsu (s : State) (f : Cfs → Cfs) : (s.modCfs f).lsu = s.lsu := rfl
@[simp] theorem State.modCfs_positions (s : State) (f : Cfs → Cfs) : (s.modCfs f).positions = s.positions := rfl
@[simp] theorem State.modCfs_seatmap (s : State) (f : Cfs → Cfs) : (s.modCfs f).seatmap = s.seatmap := rfl
@[simp] theorem State.modCfs_poscfg (s : State) (f : Cfs → Cfs) : (s.modCfs f).poscfg = s.poscfg := rfl
@[simp] theorem State.modCfs_rules (s : State) (f : Cfs → Cfs) : (s.modCfs f).rules = s.rules := rfl
@[simp] theorem State.modCfs_profiles (s : State) (f : Cfs → Cfs) : (s.modCfs f).profiles = s.profiles := rfl
@[simp] theorem State.modCfs_tick (s : State) (f : Cfs → Cfs) : (s.modCfs f).tick = s.tick := rfl
@[simp] theorem State.modCfs_chd (s : State) (f : Cfs → Cfs) : (s.modCfs f).chd = s.chd := rfl
@[simp] theorem State.modCfs_pnd (s : State) (f : Cfs → Cfs) : (s.modCfs f).pnd = s.pnd := rfl
@[simp] theorem State.modCfs_pmg (s : State) (f : Cfs → Cfs) : (s.modCfs f).pmg = s.pmg := rfl
@[simp] theorem State.modCfs_cfs (s : State) (f : Cfs → Cfs) :
    (s.modCfs f).cfs = f s.cfs := rfl
@[simp] theorem State.modCfs_toChime (s : State) (f : Cfs → Cfs) : (s.modCfs f).toChime = s.toChime := rfl
@[simp] theorem State.modCfs_free (s : State) (f : Cfs → Cfs) : (s.modCfs f).free = s.free := rfl
@[simp] theorem State.modCfs_pending (s : State) (f : Cfs → Cfs) : (s.modCfs f).pending = s.pending := rfl

@[simp] theorem State.modChd_tkp (s : State) (f : Chd → Chd) : (s.modChd f).tkp = s.tkp := rfl
@[simp] theorem State.modChd_sga (s : State) (f : Chd → Chd) : (s.modChd f).sga = s.sga := rfl
@[simp] theorem State.modChd_sgb (s : State) (f : Chd → Chd) : (s.modChd f).sgb = s.sgb := rfl
@[simp] theorem State.modChd_slots (s : State) (f : Chd → Chd) : (s.modChd f).slots = s.slots := rfl
@[simp] theorem State.modChd_node (s : State) (f : Chd → Chd) : (s.modChd f).node = s.node := rfl
@[simp] theorem State.modChd_lsu (s : State) (f : Chd → Chd) : (s.modChd f).lsu = s.lsu := rfl
@[simp] theorem State.modChd_positions (s : State) (f : Chd → Chd) : (s.modChd f).positions = s.positions := rfl
@[simp] theorem State.modChd_seatmap (s : State) (f : Chd → Chd) : (s.modChd f).seatmap = s.seatmap := rfl
@[simp] theorem State.modChd_poscfg (s : State) (f : Chd → Chd) : (s.modChd f).poscfg = s.poscfg := rfl
@[simp] theorem State.modChd_rules (s : State) (f : Chd → Chd) : (s.modChd f).rules = s.rules := rfl
@[simp] theorem State.modChd_profiles (s : State) (f : Chd → Chd) : (s.modChd f).profiles = s.profiles := rfl
@[simp] theorem State.modChd_tick (s : State) (f : Chd → Chd) : (s.modChd f).tick = s.tick := rfl
@[simp] theorem State.modChd_chd (s : State) (f : Chd → Chd) :
    (s.modChd f).chd = f s.chd := rfl
@[simp] theorem State.modChd_pnd (s : State) (f : Chd → Chd) : (s.modChd f).pnd = s.pnd := rfl
@[simp] theorem State.modChd_pmg (s : State) (f : Chd → Chd) : (s.modChd f).pmg = s.pmg := rfl
@[simp] theorem State.modChd_cfs (s : State) (f : Chd → Chd) : (s.modChd f).cfs = s.cfs := rfl
@[simp] theorem State.modChd_toChime (s : State) (f : Chd → Chd) : (s.modChd f).toChime = s.toChime := rfl
@[simp] theorem State.modChd_free (s : State) (f : Chd → Chd) : (s.modChd f).free = s.free := rfl
@[simp] theorem State.modChd_pending (s : State) (f : Chd → Chd) : (s.modChd f).pending = s.pending := rfl

@[simp] theorem State.rxHunt_tkp (s : State) :
    (s.rxHunt).tkp = { s.tkp with rx := .hunt } := rfl
@[simp] theorem State.rxHunt_sga (s : State) : (s.rxHunt).sga = s.sga := rfl
@[simp] theorem State.rxHunt_sgb (s : State) : (s.rxHunt).sgb = s.sgb := rfl
@[simp] theorem State.rxHunt_slots (s : State) : (s.rxHunt).slots = s.slots := rfl
@[simp] theorem State.rxHunt_node (s : State) : (s.rxHunt).node = s.node := rfl
@[simp] theorem State.rxHunt_lsu (s : State) : (s.rxHunt).lsu = s.lsu := rfl
@[simp] theorem State.rxHunt_positions (s : State) : (s.rxHunt).positions = s.positions := rfl
@[simp] theorem State.rxHunt_seatmap (s : State) : (s.rxHunt).seatmap = s.seatmap := rfl
@[simp] theorem State.rxHunt_poscfg (s : State) : (s.rxHunt).poscfg = s.poscfg := rfl
@[simp] theorem State.rxHunt_rules (s : State) : (s.rxHunt).rules = s.rules := rfl
@[simp] theorem State.rxHunt_profiles (s : State) : (s.rxHunt).profiles = s.profiles := rfl
@[simp] theorem State.rxHunt_tick (s : State) : (s.rxHunt).tick = s.tick := rfl
@[simp] theorem State.rxHunt_chd (s : State) : (s.rxHunt).chd = s.chd := rfl
@[simp] theorem State.rxHunt_pnd (s : State) : (s.rxHunt).pnd = s.pnd := rfl
@[simp] theorem State.rxHunt_pmg (s : State) : (s.rxHunt).pmg = s.pmg := rfl
@[simp] theorem State.rxHunt_cfs (s : State) : (s.rxHunt).cfs = s.cfs := rfl
@[simp] theorem State.rxHunt_toChime (s : State) : (s.rxHunt).toChime = s.toChime := rfl
@[simp] theorem State.rxHunt_free (s : State) : (s.rxHunt).free = s.free := rfl
@[simp] theorem State.rxHunt_pending (s : State) : (s.rxHunt).pending = s.pending := rfl

@[simp] theorem State.reply_tkp (s : State) (tag kind : Byte) (st : Status) (body : List Byte) :
    (s.reply tag kind st body).tkp = { s.tkp with replies := s.tkp.replies ++ [{ tag := tag, kind := kind, status := st, body := body }] } := rfl
@[simp] theorem State.reply_sga (s : State) (tag kind : Byte) (st : Status) (body : List Byte) : (s.reply tag kind st body).sga = s.sga := rfl
@[simp] theorem State.reply_sgb (s : State) (tag kind : Byte) (st : Status) (body : List Byte) : (s.reply tag kind st body).sgb = s.sgb := rfl
@[simp] theorem State.reply_slots (s : State) (tag kind : Byte) (st : Status) (body : List Byte) : (s.reply tag kind st body).slots = s.slots := rfl
@[simp] theorem State.reply_node (s : State) (tag kind : Byte) (st : Status) (body : List Byte) : (s.reply tag kind st body).node = s.node := rfl
@[simp] theorem State.reply_lsu (s : State) (tag kind : Byte) (st : Status) (body : List Byte) : (s.reply tag kind st body).lsu = s.lsu := rfl
@[simp] theorem State.reply_positions (s : State) (tag kind : Byte) (st : Status) (body : List Byte) : (s.reply tag kind st body).positions = s.positions := rfl
@[simp] theorem State.reply_seatmap (s : State) (tag kind : Byte) (st : Status) (body : List Byte) : (s.reply tag kind st body).seatmap = s.seatmap := rfl
@[simp] theorem State.reply_poscfg (s : State) (tag kind : Byte) (st : Status) (body : List Byte) : (s.reply tag kind st body).poscfg = s.poscfg := rfl
@[simp] theorem State.reply_rules (s : State) (tag kind : Byte) (st : Status) (body : List Byte) : (s.reply tag kind st body).rules = s.rules := rfl
@[simp] theorem State.reply_profiles (s : State) (tag kind : Byte) (st : Status) (body : List Byte) : (s.reply tag kind st body).profiles = s.profiles := rfl
@[simp] theorem State.reply_tick (s : State) (tag kind : Byte) (st : Status) (body : List Byte) : (s.reply tag kind st body).tick = s.tick := rfl
@[simp] theorem State.reply_chd (s : State) (tag kind : Byte) (st : Status) (body : List Byte) : (s.reply tag kind st body).chd = s.chd := rfl
@[simp] theorem State.reply_pnd (s : State) (tag kind : Byte) (st : Status) (body : List Byte) : (s.reply tag kind st body).pnd = s.pnd := rfl
@[simp] theorem State.reply_pmg (s : State) (tag kind : Byte) (st : Status) (body : List Byte) : (s.reply tag kind st body).pmg = s.pmg := rfl
@[simp] theorem State.reply_cfs (s : State) (tag kind : Byte) (st : Status) (body : List Byte) : (s.reply tag kind st body).cfs = s.cfs := rfl
@[simp] theorem State.reply_toChime (s : State) (tag kind : Byte) (st : Status) (body : List Byte) : (s.reply tag kind st body).toChime = s.toChime := rfl
@[simp] theorem State.reply_free (s : State) (tag kind : Byte) (st : Status) (body : List Byte) : (s.reply tag kind st body).free = s.free := rfl
@[simp] theorem State.reply_pending (s : State) (tag kind : Byte) (st : Status) (body : List Byte) : (s.reply tag kind st body).pending = s.pending := rfl

@[simp] theorem State.reserve_tkp (s : State) (tag kind : Byte) :
    (s.reserve tag kind).tkp = { s.tkp with reserved := some { tag := tag, kind := kind } } := rfl
@[simp] theorem State.reserve_sga (s : State) (tag kind : Byte) : (s.reserve tag kind).sga = s.sga := rfl
@[simp] theorem State.reserve_sgb (s : State) (tag kind : Byte) : (s.reserve tag kind).sgb = s.sgb := rfl
@[simp] theorem State.reserve_slots (s : State) (tag kind : Byte) : (s.reserve tag kind).slots = s.slots := rfl
@[simp] theorem State.reserve_node (s : State) (tag kind : Byte) : (s.reserve tag kind).node = s.node := rfl
@[simp] theorem State.reserve_lsu (s : State) (tag kind : Byte) : (s.reserve tag kind).lsu = s.lsu := rfl
@[simp] theorem State.reserve_positions (s : State) (tag kind : Byte) : (s.reserve tag kind).positions = s.positions := rfl
@[simp] theorem State.reserve_seatmap (s : State) (tag kind : Byte) : (s.reserve tag kind).seatmap = s.seatmap := rfl
@[simp] theorem State.reserve_poscfg (s : State) (tag kind : Byte) : (s.reserve tag kind).poscfg = s.poscfg := rfl
@[simp] theorem State.reserve_rules (s : State) (tag kind : Byte) : (s.reserve tag kind).rules = s.rules := rfl
@[simp] theorem State.reserve_profiles (s : State) (tag kind : Byte) : (s.reserve tag kind).profiles = s.profiles := rfl
@[simp] theorem State.reserve_tick (s : State) (tag kind : Byte) : (s.reserve tag kind).tick = s.tick := rfl
@[simp] theorem State.reserve_chd (s : State) (tag kind : Byte) : (s.reserve tag kind).chd = s.chd := rfl
@[simp] theorem State.reserve_pnd (s : State) (tag kind : Byte) : (s.reserve tag kind).pnd = s.pnd := rfl
@[simp] theorem State.reserve_pmg (s : State) (tag kind : Byte) : (s.reserve tag kind).pmg = s.pmg := rfl
@[simp] theorem State.reserve_cfs (s : State) (tag kind : Byte) : (s.reserve tag kind).cfs = s.cfs := rfl
@[simp] theorem State.reserve_toChime (s : State) (tag kind : Byte) : (s.reserve tag kind).toChime = s.toChime := rfl
@[simp] theorem State.reserve_free (s : State) (tag kind : Byte) : (s.reserve tag kind).free = s.free := rfl
@[simp] theorem State.reserve_pending (s : State) (tag kind : Byte) : (s.reserve tag kind).pending = s.pending := rfl

@[simp] theorem State.addEvent_tkp (s : State) (i : Slot) (e : SlotEvent) : (s.addEvent i e).tkp = s.tkp := rfl
@[simp] theorem State.addEvent_sga (s : State) (i : Slot) (e : SlotEvent) : (s.addEvent i e).sga = s.sga := rfl
@[simp] theorem State.addEvent_sgb (s : State) (i : Slot) (e : SlotEvent) : (s.addEvent i e).sgb = s.sgb := rfl
@[simp] theorem State.addEvent_node (s : State) (i : Slot) (e : SlotEvent) : (s.addEvent i e).node = s.node := rfl
@[simp] theorem State.addEvent_lsu (s : State) (i : Slot) (e : SlotEvent) : (s.addEvent i e).lsu = s.lsu := rfl
@[simp] theorem State.addEvent_positions (s : State) (i : Slot) (e : SlotEvent) : (s.addEvent i e).positions = s.positions := rfl
@[simp] theorem State.addEvent_seatmap (s : State) (i : Slot) (e : SlotEvent) : (s.addEvent i e).seatmap = s.seatmap := rfl
@[simp] theorem State.addEvent_poscfg (s : State) (i : Slot) (e : SlotEvent) : (s.addEvent i e).poscfg = s.poscfg := rfl
@[simp] theorem State.addEvent_rules (s : State) (i : Slot) (e : SlotEvent) : (s.addEvent i e).rules = s.rules := rfl
@[simp] theorem State.addEvent_profiles (s : State) (i : Slot) (e : SlotEvent) : (s.addEvent i e).profiles = s.profiles := rfl
@[simp] theorem State.addEvent_tick (s : State) (i : Slot) (e : SlotEvent) : (s.addEvent i e).tick = s.tick := rfl
@[simp] theorem State.addEvent_chd (s : State) (i : Slot) (e : SlotEvent) : (s.addEvent i e).chd = s.chd := rfl
@[simp] theorem State.addEvent_pnd (s : State) (i : Slot) (e : SlotEvent) : (s.addEvent i e).pnd = s.pnd := rfl
@[simp] theorem State.addEvent_pmg (s : State) (i : Slot) (e : SlotEvent) : (s.addEvent i e).pmg = s.pmg := rfl
@[simp] theorem State.addEvent_cfs (s : State) (i : Slot) (e : SlotEvent) : (s.addEvent i e).cfs = s.cfs := rfl
@[simp] theorem State.addEvent_toChime (s : State) (i : Slot) (e : SlotEvent) : (s.addEvent i e).toChime = s.toChime := rfl
@[simp] theorem State.addEvent_free (s : State) (i : Slot) (e : SlotEvent) : (s.addEvent i e).free = s.free := rfl
@[simp] theorem State.addEvent_pending (s : State) (i : Slot) (e : SlotEvent) : (s.addEvent i e).pending = s.pending := rfl

@[simp] theorem State.leaveWatch_tkp (s : State) (p : Pos) : (s.leaveWatch p).tkp = s.tkp := rfl
@[simp] theorem State.leaveWatch_sga (s : State) (p : Pos) : (s.leaveWatch p).sga = s.sga := rfl
@[simp] theorem State.leaveWatch_sgb (s : State) (p : Pos) : (s.leaveWatch p).sgb = s.sgb := rfl
@[simp] theorem State.leaveWatch_slots (s : State) (p : Pos) : (s.leaveWatch p).slots = s.slots := rfl
@[simp] theorem State.leaveWatch_node (s : State) (p : Pos) : (s.leaveWatch p).node = s.node := rfl
@[simp] theorem State.leaveWatch_lsu (s : State) (p : Pos) : (s.leaveWatch p).lsu = s.lsu := rfl
@[simp] theorem State.leaveWatch_positions (s : State) (p : Pos) : (s.leaveWatch p).positions = s.positions := rfl
@[simp] theorem State.leaveWatch_seatmap (s : State) (p : Pos) : (s.leaveWatch p).seatmap = s.seatmap := rfl
@[simp] theorem State.leaveWatch_poscfg (s : State) (p : Pos) : (s.leaveWatch p).poscfg = s.poscfg := rfl
@[simp] theorem State.leaveWatch_rules (s : State) (p : Pos) : (s.leaveWatch p).rules = s.rules := rfl
@[simp] theorem State.leaveWatch_profiles (s : State) (p : Pos) : (s.leaveWatch p).profiles = s.profiles := rfl
@[simp] theorem State.leaveWatch_tick (s : State) (p : Pos) : (s.leaveWatch p).tick = s.tick := rfl
@[simp] theorem State.leaveWatch_chd (s : State) (p : Pos) : (s.leaveWatch p).chd = s.chd := rfl
@[simp] theorem State.leaveWatch_pnd (s : State) (p : Pos) : (s.leaveWatch p).pnd = s.pnd := rfl
@[simp] theorem State.leaveWatch_cfs (s : State) (p : Pos) : (s.leaveWatch p).cfs = s.cfs := rfl
@[simp] theorem State.leaveWatch_toChime (s : State) (p : Pos) : (s.leaveWatch p).toChime = s.toChime := rfl
@[simp] theorem State.leaveWatch_free (s : State) (p : Pos) : (s.leaveWatch p).free = s.free := rfl
@[simp] theorem State.leaveWatch_pending (s : State) (p : Pos) : (s.leaveWatch p).pending = s.pending := rfl

@[simp] theorem State.setPos_positions (s : State) (p : Pos) (r : Position) :
    (s.setPos p r).positions = put s.positions p r := rfl
@[simp] theorem State.setSlot_slots (s : State) (i : Slot) (r : SlotRec) :
    (s.setSlot i r).slots = put s.slots i r := rfl

end Machine

end Sys2Proof
end

