-- ==== Sys2Proof/Laws/Frames.lean ====
section
/-! SUPPORT. What taking a frame, answering a table write and settling a step do, once each. -/

namespace Sys2Proof.Machine

@[simp] theorem State.takeFrame_outside {s : State} {kind tag : Byte} {fits : Bool} {own : State → State}
    (h : s.tkp.rx ≠ .inFrame) : s.takeFrame kind tag fits own = s := by simp [State.takeFrame, h]

theorem State.takeFrame_full {s : State} {kind tag : Byte} {fits : Bool} {own : State → State}
    (h : s.tkp.rx = .inFrame) (hf : 8 ≤ s.tkp.placesTaken) :
    s.takeFrame kind tag fits own =
      { s with tkp := { s.tkp with rx := .hunt, flags := { s.tkp.flags with replyOverrun := true } } } := by
  have hf' : Config.replyPlaces ≤ s.rxHunt.tkp.placesTaken := hf
  simp only [State.takeFrame, h, ne_eq, not_true, if_false, hf', if_true]
  rfl

theorem State.takeFrame_starting {s : State} {kind tag : Byte} {fits : Bool} {own : State → State}
    (h : s.tkp.rx = .inFrame) (hf : s.tkp.placesTaken < 8) (hp : s.pmg.power = .starting) (hk : kind ≠ 0x11) :
    s.takeFrame kind tag fits own = s.answered tag kind .starting [] := by
  have hf' : ¬Config.replyPlaces ≤ s.rxHunt.tkp.placesTaken := Nat.not_le.mpr hf
  have hk' : kind ≠ Kind.identq := hk
  have hp' : s.rxHunt.pmg.power = .starting := hp
  simp only [State.takeFrame, h, ne_eq, not_true, if_false, hf', hp', hk', not_false_iff, and_self, if_true]
  rfl

theorem State.takeFrame_length {s : State} {kind tag : Byte} {own : State → State}
    (h : s.tkp.rx = .inFrame) (hf : s.tkp.placesTaken < 8) (hp : s.pmg.power ≠ .starting ∨ kind = 0x11) :
    s.takeFrame kind tag false own = s.answered tag kind .length [] := by
  have hf' : ¬Config.replyPlaces ≤ s.rxHunt.tkp.placesTaken := Nat.not_le.mpr hf
  have hp' : ¬(s.rxHunt.pmg.power = .starting ∧ kind ≠ Kind.identq) := by
    rintro ⟨a, b⟩
    exact hp.elim (fun c => c a) b
  simp only [State.takeFrame, h, ne_eq, not_true, if_false, hf', hp', Bool.not_false, if_true]
  rfl

/-- The owner takes a frame that passes every test (R190). -/
theorem State.takeFrame_own {s : State} {kind tag : Byte} {own : State → State}
    (h : s.tkp.rx = .inFrame) (hf : s.tkp.placesTaken < 8) (hp : s.pmg.power ≠ .starting ∨ kind = 0x11) :
    s.takeFrame kind tag true own = own s.rxHunt := by
  have hf' : ¬Config.replyPlaces ≤ s.rxHunt.tkp.placesTaken := Nat.not_le.mpr hf
  have hp' : ¬(s.rxHunt.pmg.power = .starting ∧ kind ≠ Kind.identq) := by
    rintro ⟨a, b⟩
    exact hp.elim (fun c => c a) b
  simp only [State.takeFrame, h, ne_eq, not_true, if_false, hf', hp', Bool.not_true]
  rfl

theorem State.takes.own {s : State} (h : s.takes) {kind tag : Byte} {own : State → State} :
    s.takeFrame kind tag true own = own s.rxHunt :=
  State.takeFrame_own h.1 h.2.1 (.inl h.2.2)

/-- A REPLY after the receiver's return to HUNT is the answered state. -/
@[simp] theorem State.rxHunt_reply (s : State) (tag kind : Byte) (st : Status) (body : List Byte) :
    s.rxHunt.reply tag kind st body = s.answered tag kind st body := rfl

@[simp] theorem State.rxHunt_refuseTable (s : State) (tag kind table index : Byte) (st : Status) :
    s.rxHunt.refuseTable tag kind table index st = s.answered tag kind st [table, index] := rfl

/-! ### Table writes -/

theorem State.writeTable_error {s : State} {t : TableId} {tag index : Byte} {entry : List Byte}
    {own : Nat → List Byte → State → Except Status State} {st : Status} (hi : index.toNat < t.count)
    (hl : entry.length = t.entrySize) (hp : s.cfs.protects t = false) (ho : own index.toNat entry s = .error st) :
    s.writeTable t tag index entry own = s.refuseTable tag Kind.tblwr (byte t.id) index st := by
  simp only [State.writeTable, Nat.not_le.mpr hi, hl, hp, ho, if_false, ne_eq, not_true, Bool.false_eq_true]

/-- An entry that passes every check is stored by its owner and answered as stored (R193, R194). -/
theorem State.writeTable_ok {s s' : State} {t : TableId} {tag index : Byte} {entry : List Byte}
    {own : Nat → List Byte → State → Except Status State} (hi : index.toNat < t.count)
    (hl : entry.length = t.entrySize) (hp : s.cfs.protects t = false) (ho : own index.toNat entry s = .ok s') :
    s.writeTable t tag index entry own =
      s'.reply tag Kind.tblwr .ok (byte t.id :: index :: s'.entryBytes t index.toNat) := by
  simp only [State.writeTable, Nat.not_le.mpr hi, hl, hp, ho, if_false, ne_eq, not_true, Bool.false_eq_true]

theorem byte_toNat {n : Nat} (h : n < 256) : (byte n).toNat = n := by
  simp [byte, Nat.mod_eq_of_lt h]

theorem ofNat_fin {n : Nat} [NeZero n] (i : Fin n) : Fin.ofNat n i.val = i := by
  ext; simp [Fin.ofNat, Nat.mod_eq_of_lt i.isLt]

/-! ### The end of a step -/

theorem deliver_of_nil {s : State} (h : s.toChime = []) : deliver s = s := by simp [deliver, h]

theorem State.sleepIfEmpty_of {s : State} (h : s.pmg.power = .parkWatch → s.pmg.watchSet ≠ []) :
    s.sleepIfEmpty = s := by
  unfold State.sleepIfEmpty
  exact if_neg fun ⟨a, b⟩ => h a b

/-- A settled state stays as it is at the end of a step. -/
theorem State.settle_of_settled {s : State} (h : s.settled) : s.settle = s := by
  rw [State.settle, deliver_of_nil h.1, State.sleepIfEmpty_of h.2]

/-- Settling reads the trunk port nowhere, so an answered state settles as the state before. -/
theorem State.settled_of_eq {s t : State} (h : s.settled) (h1 : t.toChime = s.toChime)
    (h2 : t.pmg.power = s.pmg.power) (h3 : t.pmg.watchSet = s.pmg.watchSet) : t.settled :=
  ⟨h1.trans h.1, fun e => h3 ▸ h.2 (h2 ▸ e)⟩

end Sys2Proof.Machine
end

