-- ==== Sys2Proof/Laws/Chime.lean ====
section
/-! SUPPORT. What CHD's operations do to the grant and to the requests, and what handing it a step's events does. -/

namespace Sys2Proof.Machine

/-! ### The first of an index range -/

theorem find_lowest {n : Nat} {f : Fin n → Bool} {p : Fin n} (h : f p = true) (h' : ∀ q, q < p → f q = false) :
    (List.finRange n).find? f = some p := by
  rw [List.find?_eq_some_iff_append]
  obtain ⟨as, bs, e⟩ := List.append_of_mem (List.mem_finRange p)
  refine ⟨h, as, bs, e, fun a ha => ?_⟩
  have hs : (List.finRange n).Pairwise (· < ·) := List.pairwise_lt_finRange n
  rw [e] at hs
  simp [h' a ((List.pairwise_append.mp hs).2.2 a ha p (by simp))]

theorem find_none {n : Nat} {f : Fin n → Bool} (h : ∀ q, f q = false) : (List.finRange n).find? f = none := by
  rw [List.find?_eq_none]
  intro x _
  simp [h x]

theorem of_find_lowest {n : Nat} {f : Fin n → Bool} {p : Fin n} (h : (List.finRange n).find? f = some p) :
    f p = true ∧ ∀ q, q < p → f q = false := by
  obtain ⟨h1, as, bs, h2, h3⟩ := List.find?_eq_some_iff_append.mp h
  refine ⟨h1, fun q hq => ?_⟩
  have hs : (List.finRange n).Pairwise (· < ·) := List.pairwise_lt_finRange n
  have hq' : q ∈ List.finRange n := List.mem_finRange q
  rw [h2] at hs hq'
  rcases List.mem_append.mp hq' with h | h
  · simpa using h3 q h
  · rcases List.mem_cons.mp h with rfl | h
    · exact absurd hq (lt_irrefl _)
    · have := (List.pairwise_cons.mp (List.pairwise_append.mp hs).2.1).1 q h
      exact absurd (lt_trans this hq) (lt_irrefl _)

/-! ### The tone on CHIME -/

/-- CHIME carries a frequency exactly where it carries a tone (R158). -/
@[simp] theorem Chd.frequency_eq_none (c : Chd) : c.frequency = none ↔ c.output = none := by
  unfold Chd.frequency
  exact Option.map_eq_none_iff

/-- The frequency of a tone that sounds is the one of R158's table. -/
theorem Chd.frequency_of_output {c : Chd} {tone : Tone} (h : c.output = some tone) :
    c.frequency = some (if tone = 0 then 650 else if tone = 1 then 1300 else if tone = 2 then 2100 else 2900) := by
  unfold Chd.frequency
  rw [h, Option.map_some]
  clear h
  revert tone
  decide

/-! ### The release order -/

/-- The release order gives the grant of R157. -/
theorem Chd.release_grantsNext (c : Chd) : c.grantsNext c.release := by
  unfold Chd.release
  split
  · assumption
  split
  · simp_all [Chd.grantsNext]
  have ha : c.alert = none := by simpa using ‹¬c.alert.isSome = true›
  have ht : c.test = none := by simpa using ‹¬c.test.isSome = true›
  split
  · rename_i p hp
    obtain ⟨h1, h2⟩ := of_find_lowest hp
    exact ⟨ha, ht, h1, fun q hq => by simpa using h2 q hq⟩
  · rename_i hp
    refine ⟨ha, ht, fun q => ?_⟩
    simpa using List.find?_eq_none.mp hp q (List.mem_finRange q)

/-- A grant that the release order gives keeps the law of the grant. -/
theorem Chd.whole_of_grantsNext {c : Chd} {g : Grant} (h : c.grantsNext g) (e : c.grant = g) : c.whole := by
  subst e
  revert h
  cases hg : c.grant <;> intro h
  · obtain ⟨a, b, d⟩ := h
    exact ⟨by simp [a, hg], by simp [hg], by simp [hg], fun _ => ⟨b, d⟩⟩
  · have h' : c.alert.isSome = true := h
    exact ⟨by simp [hg, h'], by simp [hg], by simp [hg], by simp [hg]⟩
  · obtain ⟨a, b⟩ := h
    exact ⟨by simp [a, hg], by simp [hg, b], by simp [hg], by simp [hg]⟩
  · obtain ⟨a, b, d, _⟩ := h
    exact ⟨by simp [a, hg], by simp [hg], by rintro p e; rw [hg] at e; cases e; exact d, by simp [hg]⟩

/-! ### Single events -/

@[simp] theorem Chd.raisePos_alert (c : Chd) (p : Pos) (t : Tone) : (c.raisePos p t).alert = c.alert := rfl
@[simp] theorem Chd.raisePos_test (c : Chd) (p : Pos) (t : Tone) : (c.raisePos p t).test = c.test := rfl
@[simp] theorem Chd.raisePos_requests (c : Chd) (p : Pos) (t : Tone) :
    (c.raisePos p t).requests = put c.requests p (some t) := rfl

@[simp] theorem Chd.withdrawPos_alert (c : Chd) (p : Pos) : (c.withdrawPos p).alert = c.alert := by
  unfold Chd.withdrawPos; split <;> rfl

@[simp] theorem Chd.withdrawPos_test (c : Chd) (p : Pos) : (c.withdrawPos p).test = c.test := by
  unfold Chd.withdrawPos; split <;> rfl

/-- A withdrawal leaves the request absent and every other request as it stands (R156). -/
theorem Chd.withdrawPos_requests (c : Chd) (p q : Pos) :
    (c.withdrawPos p).requests[q] = if q = p then none else c.requests[q] := by
  unfold Chd.withdrawPos
  split
  · simp
  · rename_i h
    split
    · rename_i e; subst e; simpa using h
    · rfl

theorem Chd.raisePos_whole {c : Chd} (h : c.whole) (p : Pos) (t : Tone) : (c.raisePos p t).whole := by
  obtain ⟨h1, h2, h3, h4⟩ := h
  by_cases hg : c.grant = .none
  · have e : (c.raisePos p t).grant = .pos p := by simp [Chd.raisePos, hg]
    refine ⟨?_, by simp [e], ?_, by simp [e]⟩
    · rw [e]; simp only [reduceCtorEq, Chd.raisePos_alert, false_iff]; rw [← h1, hg]; simp
    · intro q hq; rw [e] at hq; cases hq; simp
  · have e : (c.raisePos p t).grant = c.grant := by simp [Chd.raisePos, hg]
    refine ⟨by rw [e]; exact h1, by rw [e]; exact h2, ?_, by rw [e]; exact fun x => absurd x hg⟩
    intro q hq
    rw [e] at hq
    have := h3 q hq
    simp only [Chd.raisePos_requests, Fin.getElem_fin, put_get]
    split <;> simp_all

theorem Chd.withdrawPos_whole {c : Chd} (h : c.whole) (p : Pos) : (c.withdrawPos p).whole := by
  by_cases hr : c.requests[p].isSome
  · by_cases hg : c.grant = .pos p
    · apply Chd.whole_of_grantsNext (g := Chd.release { c with requests := put c.requests p none })
      · simp only [Chd.withdrawPos, hr, if_true, hg]
        exact Chd.release_grantsNext { c with requests := put c.requests p none }
      · simp only [Chd.withdrawPos, hr, if_true, hg]
    · obtain ⟨h1, h2, h3, h4⟩ := h
      have e : (c.withdrawPos p).grant = c.grant := by simp only [Chd.withdrawPos, hr, if_true, hg, if_false]
      refine ⟨by rw [e, c.withdrawPos_alert]; exact h1, by rw [e, c.withdrawPos_test]; exact h2, ?_, ?_⟩
      · intro q hq
        rw [e] at hq
        rw [c.withdrawPos_requests, if_neg]
        · exact h3 q hq
        · rintro rfl; exact hg hq
      · rw [e, c.withdrawPos_test]
        intro x
        refine ⟨(h4 x).1, fun q => ?_⟩
        rw [c.withdrawPos_requests]
        split <;> simp [(h4 x).2]
  · rw [Chd.withdrawPos, if_neg hr]; exact h

theorem Chd.take_whole {c : Chd} (h : c.whole) (e : ChimeEvent) : (c.take e).whole := by
  cases e with
  | raise p t => exact c.raisePos_whole h p t
  | withdraw p => exact c.withdrawPos_whole h p

theorem Chd.foldl_take_whole {c : Chd} (h : c.whole) (es : List ChimeEvent) : (es.foldl Chd.take c).whole := by
  induction es generalizing c with
  | nil => exact h
  | cons e es ih => exact ih (Chd.take_whole h e)

theorem Chd.foldl_take_alert (c : Chd) (es : List ChimeEvent) :
    (es.foldl Chd.take c).alert = c.alert ∧ (es.foldl Chd.take c).test = c.test := by
  induction es generalizing c with
  | nil => exact ⟨rfl, rfl⟩
  | cons e es ih =>
    have h : (c.take e).alert = c.alert ∧ (c.take e).test = c.test := by cases e <;> simp [Chd.take]
    exact ⟨(ih _).1.trans h.1, (ih _).2.trans h.2⟩

theorem Chd.raiseTest_whole {c : Chd} (h : c.whole) : c.raiseTest.whole := by
  obtain ⟨h1, h2, h3, h4⟩ := h
  unfold Chd.raiseTest
  split
  · rename_i ht
    exact ⟨h1, fun _ => rfl, h3, fun x => by simp [(h4 x).1] at ht⟩
  · rename_i ht
    by_cases hg : c.grant = .alert
    · simp only [hg, if_true]
      exact ⟨by simp [h1.mp hg], by simp, by simp, by simp⟩
    · simp only [hg, if_false]
      refine ⟨?_, by simp, by simp, by simp⟩
      simp only [reduceCtorEq, false_iff]; rw [← h1]; exact hg

theorem Chd.endTest_whole {c : Chd} (h : c.whole) : c.endTest.whole := by
  obtain ⟨h1, h2, h3, h4⟩ := h
  by_cases hg : c.grant = .test
  · apply Chd.whole_of_grantsNext (g := Chd.release { c with test := none })
    · simp only [Chd.endTest, hg, if_true]; exact Chd.release_grantsNext { c with test := none }
    · simp only [Chd.endTest, hg, if_true]
  · simp only [Chd.endTest, hg, if_false]
    exact ⟨h1, fun x => absurd x hg, h3, fun x => ⟨rfl, (h4 x).2⟩⟩

theorem Chd.raiseAlert_whole {c : Chd} (h : c.whole) : c.raiseAlert.whole := by
  unfold Chd.raiseAlert
  split
  · exact h
  · exact ⟨by simp, by simp, by simp, by simp⟩

theorem Chd.withdrawAlert_whole {c : Chd} (h : c.whole) : c.withdrawAlert.whole := by
  unfold Chd.withdrawAlert
  split
  · rename_i ha
    have hg := h.1.mpr ha
    apply Chd.whole_of_grantsNext (g := Chd.release { c with alert := none })
    · simp only [hg, if_true]; exact Chd.release_grantsNext { c with alert := none }
    · simp only [hg, if_true]
  · exact h

theorem Chd.reset_whole : Chd.reset.whole := by
  refine ⟨by simp [Chd.reset], by simp [Chd.reset], by simp [Chd.reset], fun _ => ⟨rfl, fun p => ?_⟩⟩
  simp [Chd.reset]

/-! ### The events of a step -/

/-- The last of the events of position `p`, if any. -/
def lastOf (p : Pos) (es : List ChimeEvent) : Option ChimeEvent := (es.filter fun e => e.pos = p).getLast?

/-- The request an event leaves. -/
def ChimeEvent.leaves : ChimeEvent → Option Tone
  | .raise _ t => some t
  | .withdraw _ => none

/-- After a list of events a position's request is what its last event leaves, or as before. -/
theorem Chd.foldl_take_requests (c : Chd) (es : List ChimeEvent) (p : Pos) :
    (es.foldl Chd.take c).requests[p] = ((lastOf p es).map ChimeEvent.leaves).getD c.requests[p] := by
  induction es generalizing c with
  | nil => rfl
  | cons e es ih =>
    have h1 : (c.take e).requests[p] = if e.pos = p then e.leaves else c.requests[p] := by
      cases e with
      | raise q t => simp [Chd.take, ChimeEvent.pos, ChimeEvent.leaves, eq_comm]
      | withdraw q => simp only [Chd.take, ChimeEvent.pos, ChimeEvent.leaves, Chd.withdrawPos_requests, eq_comm]
    rw [List.foldl_cons, ih, h1]
    unfold lastOf
    by_cases hp : e.pos = p
    · simp only [List.filter_cons, hp, decide_true, if_true, List.getLast?_cons, Option.map_some, Option.getD_some]
      cases (es.filter fun e => e.pos = p).getLast? <;> rfl
    · simp [hp]

theorem filter_eraseP_find {es : List ChimeEvent} {p q : Pos} :
    (es.eraseP fun x => x.pos = p).filter (fun x => x.pos = q) =
      if q = p then (es.filter fun x => x.pos = q).tail else es.filter fun x => x.pos = q := by
  induction es with
  | nil => simp
  | cons e es ih =>
    by_cases h : e.pos = p
    · rw [List.eraseP_cons_of_pos (by simpa using h)]
      by_cases hq : q = p
      · subst hq; simp [h]
      · have : e.pos ≠ q := fun x => hq (x ▸ h)
        simp [hq, this]
    · rw [List.eraseP_cons_of_neg (by simpa using h)]
      by_cases hq : q = p
      · subst hq; simp only [if_true] at ih; simp [h, ih]
      · simp only [hq, if_false] at ih ⊢
        by_cases h2 : e.pos = q <;> simp [h2, ih]

theorem arrivals_filter (n k : Nat) (es : List ChimeEvent) (h : es.length ≤ k) (q : Pos) :
    (arrivals n k es).filter (fun x => x.pos = q) = es.filter fun x => x.pos = q := by
  induction k generalizing es with
  | zero => simp [List.length_eq_zero_iff.mp (Nat.le_zero.mp h), arrivals]
  | succ k ih =>
    cases es with
    | nil => rfl
    | cons e es =>
      have hm : Config.chimeArrival n k % (e :: es).length < (e :: es).length := Nat.mod_lt _ (by simp)
      simp only [arrivals]
      generalize hj : (e :: es).getD (Config.chimeArrival n k % (e :: es).length) e = w
      have hw : w ∈ e :: es := by
        rw [← hj, List.getD_eq_getElem?_getD, List.getElem?_eq_getElem hm, Option.getD_some]
        exact List.getElem_mem hm
      obtain ⟨f, hf⟩ : ∃ f, (e :: es).find? (fun x => x.pos = w.pos) = some f := by
        rw [← Option.isSome_iff_exists, List.find?_isSome]
        exact ⟨w, hw, by simp⟩
      have hfp : f.pos = w.pos := by simpa using List.find?_some hf
      simp only [hf, Option.getD_some]
      have hlen : ((e :: es).eraseP fun x => x.pos = w.pos).length ≤ k := by
        rw [List.length_eraseP_of_mem hw (by simp)]
        simpa using h
      rw [List.filter_cons, ih _ hlen, filter_eraseP_find]
      by_cases hq : q = w.pos
      · subst hq
        simp only [hfp, decide_true, if_true]
        have : ((e :: es).filter fun x => x.pos = w.pos).head? = some f := by
          rw [List.head?_filter]; exact hf
        cases hl : (e :: es).filter fun x => x.pos = w.pos with
        | nil => rw [hl] at this; cases this
        | cons a as => rw [hl] at this; cases this; rfl
      · have h2 : f.pos ≠ q := fun x => hq (x ▸ hfp)
        simp [h2, hq]

/-- The free order of arrival keeps the order of every position's events. -/
theorem arrivalOrder_filter (n : Nat) (es : List ChimeEvent) (q : Pos) :
    (arrivalOrder n es).filter (fun x => x.pos = q) = es.filter fun x => x.pos = q := by
  unfold arrivalOrder
  split
  · rfl
  · exact arrivals_filter n _ es le_rfl q

/-- What handing CHD a step's events does: every position's request is what its last event leaves; the alert and the
test stand; the law of the grant is kept; nothing but CHD, the events and the free counter changes. -/
theorem deliver_spec (s : State) :
    (deliver s).toChime = [] ∧ deliver s = { s with chd := (deliver s).chd, toChime := [], free := (deliver s).free } ∧
      (deliver s).chd.alert = s.chd.alert ∧ (deliver s).chd.test = s.chd.test ∧
        (s.chd.whole → (deliver s).chd.whole) ∧
          ∀ p : Pos, (deliver s).chd.requests[p] =
            ((lastOf p s.toChime).map ChimeEvent.leaves).getD s.chd.requests[p] := by
  by_cases h : s.toChime = []
  · simp only [deliver_of_nil h]
    refine ⟨h, by rw [← h], trivial, trivial, id, fun p => by simp [h, lastOf]⟩
  · simp only [deliver, h, if_false]
    refine ⟨trivial, trivial, (Chd.foldl_take_alert _ _).1, (Chd.foldl_take_alert _ _).2,
      fun hw => Chd.foldl_take_whole hw _, fun p => ?_⟩
    rw [Chd.foldl_take_requests]
    simp only [lastOf, arrivalOrder_filter]

end Sys2Proof.Machine
end

