-- ==== Sys2Proof/Laws/Positions.lean ====
section
/-! SUPPORT. Operations that act on one position at a time: what one position shows, what stands around the positions,
and what going through a list of positions does. -/

namespace Sys2Proof.Machine

/-! ### One position at a time -/

/-- What one position shows: its record, its image entry, its events on their way, its place in the watch set. -/
structure PosView where
  record : Position
  glyph : Glyph
  events : List ChimeEvent
  watched : Bool

/-- The view of position `p`. -/
def State.view (s : State) (p : Pos) : PosView :=
  { record := s.positions[p], glyph := s.pnd.image[p], events := s.toChime.filter fun e => e.pos = p,
    watched := decide (p ∈ s.pmg.watchSet) }

/-- The state with everything the views show taken out. -/
def State.around (s : State) : State :=
  { s with
    positions := Vector.replicate 16 Position.reset
    pnd := { s.pnd with image := Vector.replicate 16 .dark }
    toChime := []
    pmg := { s.pmg with watchSet := [] } }

/-- An operation that acts on one position at a time. -/
structure OneByOne (f : State → Pos → State) : Prop where
  around : ∀ t p, (f t p).around = t.around
  other : ∀ t p q, q ≠ p → (f t p).view q = t.view q
  same : ∀ t u p, t.around = u.around → t.view p = u.view p → (f t p).view p = (f u p).view p
  leaves : ∀ t p, (f t p).pmg.watchSet = t.pmg.watchSet ∨
    (f t p).pmg.watchSet = t.pmg.watchSet.filter fun q => q ≠ p

theorem filter_mem_filter {α : Type} [DecidableEq α] (l : List α) (a : α) :
    (l.filter fun q => q ≠ a) = l.filter fun q => q ∈ l.filter fun q => q ≠ a := by
  apply List.filter_congr
  intro x hx
  simp [hx]

/-- Going through a list of different positions acts on each as on the state before, and on nothing else. -/
theorem OneByOne.fold {f : State → Pos → State} (h : OneByOne f) (ps : List Pos) (hn : ps.Nodup) (s : State) :
    (ps.foldl f s).around = s.around ∧
      (∀ q, (ps.foldl f s).view q = if q ∈ ps then (f s q).view q else s.view q) ∧
        (ps.foldl f s).pmg.watchSet = s.pmg.watchSet.filter fun q => q ∈ (ps.foldl f s).pmg.watchSet := by
  induction ps generalizing s with
  | nil => exact ⟨rfl, fun q => by simp, (List.filter_eq_self.mpr fun a h => decide_eq_true h).symm⟩
  | cons p ps ih =>
    obtain ⟨hp, hn⟩ := List.nodup_cons.mp hn
    obtain ⟨i1, i2, i3⟩ := ih hn (f s p)
    rw [List.foldl_cons]
    refine ⟨i1.trans (h.around s p), fun q => ?_, ?_⟩
    · rw [i2]
      by_cases e : q = p
      · subst e; simp [hp]
      · have hv : (f s p).view q = s.view q := h.other s p q e
        by_cases m : q ∈ ps
        · simp only [m, if_true, List.mem_cons, or_true]
          exact h.same _ _ q (h.around s p) hv
        · simp [m, e, hv]
    · generalize ps.foldl f (f s p) = t at *
      rcases h.leaves s p with e | e
      · rw [← e]; exact i3
      · rw [e, List.filter_filter] at i3
        conv_lhs => rw [i3]
        apply List.filter_congr
        intro x hx
        by_cases m : x ∈ t.pmg.watchSet
        · have : x ≠ p := by
            rw [i3] at m
            simpa using (List.mem_filter.mp m).2 |> fun y => (by simpa using y : x ∈ t.pmg.watchSet ∧ x ≠ p).2
          simp [m, this]
        · simp [m]

/-- A state is its surroundings with the four things the views show. -/
theorem State.eq_of_around {s t : State} (h : t.around = s.around) :
    t = { s with positions := t.positions, pnd := { s.pnd with image := t.pnd.image }, toChime := t.toChime
                 pmg := { s.pmg with watchSet := t.pmg.watchSet } } := by
  have e : t = { t.around with
      positions := t.positions, pnd := { t.around.pnd with image := t.pnd.image }, toChime := t.toChime
      pmg := { t.around.pmg with watchSet := t.pmg.watchSet } } := rfl
  rw [h] at e
  exact e

theorem nodup_positions : (List.finRange 16).Nodup := List.nodup_finRange 16

end Sys2Proof.Machine
end

