-- ==== Sys2Proof/Laws/Reminder.lean ====
section
/-! SUPPORT. RME over the positions: what one handling and a handling of every position do, and that the calls to CHD
stand for the ON phases. -/

namespace Sys2Proof.Machine

/-! ### One handling -/

/-- A handling at one position by the inputs as they stand: an evaluation or a tick. -/
def State.handleAt (f : RemInputs → Reminder → Reminder × List ChimeCall) (s : State) (p : Pos) : State :=
  s.applyReminder p (f (s.remInputs p) s.positions[p].rem)

theorem State.evalAt_eq (s : State) (p : Pos) : s.evalAt p = s.handleAt evaluate p := rfl
theorem State.tickAt_eq (s : State) (p : Pos) : s.tickAt p = s.handleAt tickReminder p := rfl

theorem filter_event_self (p : Pos) (cs : List ChimeCall) :
    (cs.map (ChimeCall.event p)).filter (fun e => e.pos = p) = cs.map (ChimeCall.event p) := by
  rw [List.filter_eq_self]
  intro a ha
  obtain ⟨c, _, rfl⟩ := List.mem_map.mp ha
  cases c <;> simp [ChimeCall.event, ChimeEvent.pos]

theorem filter_event_ne {p q : Pos} (h : q ≠ p) (cs : List ChimeCall) :
    (cs.map (ChimeCall.event p)).filter (fun e => e.pos = q) = [] := by
  rw [List.filter_eq_nil_iff]
  intro a ha
  obtain ⟨c, _, rfl⟩ := List.mem_map.mp ha
  cases c <;> exact fun e => h (of_decide_eq_true e).symm

/-- What the view of a position becomes by an outcome of RME's handling. -/
def PosView.handled (v : PosView) (p : Pos) (out : Reminder × List ChimeCall) : PosView :=
  { record := v.record.reminded out.1
    glyph := if out.1.state = v.record.rem.state then v.glyph else out.1.state.glyph
    events := v.events ++ out.2.map (ChimeCall.event p)
    watched := v.watched }

theorem State.applyReminder_around (s : State) (p : Pos) (out : Reminder × List ChimeCall) :
    (s.applyReminder p out).around = s.around := rfl

theorem put_if_get {n : Nat} (v : Vector Glyph n) (p : Fin n) (x : Glyph) (c : Prop) [Decidable c] :
    (if ¬c then put v p x else v)[p] = if c then v[p] else x := by
  by_cases h : c
  · rw [if_pos h, if_neg (not_not_intro h)]
  · rw [if_neg h, if_pos h]; exact put_get_self _ _ _

theorem State.applyReminder_view_self (s : State) (p : Pos) (out : Reminder × List ChimeCall) :
    (s.applyReminder p out).view p = (s.view p).handled p out := by
  have h1 : (s.applyReminder p out).positions[p] = (s.view p).record.reminded out.1 := put_get_self _ _ _
  have h2 := put_if_get s.pnd.image p out.1.state.glyph (out.1.state = s.positions[p].rem.state)
  have h3 : (s.toChime ++ out.2.map (ChimeCall.event p)).filter (fun e => e.pos = p) =
      (s.view p).events ++ out.2.map (ChimeCall.event p) := by
    rw [List.filter_append, filter_event_self]; rfl
  exact (PosView.mk.injEq ..).mpr ⟨h1, h2, h3, rfl⟩

theorem State.applyReminder_view_ne (s : State) {p q : Pos} (h : q ≠ p) (out : Reminder × List ChimeCall) :
    (s.applyReminder p out).view q = s.view q := by
  simp only [State.view, State.applyReminder, List.filter_append, filter_event_ne h, List.append_nil]
  congr 1
  · exact put_get_ne _ _ h
  · split
    · exact put_get_ne _ _ h
    · rfl

/-- The inputs of an evaluation are read from the surroundings and from the position's own view. -/
theorem State.remInputs_congr {t u : State} {p : Pos} (h : t.around = u.around) (hv : t.view p = u.view p) :
    t.remInputs p = u.remInputs p := by
  have h1 : t.positions[p] = u.positions[p] := congrArg PosView.record hv
  have h3 : t.around.pmg.ignition = u.around.pmg.ignition := by rw [h]
  have h4 : t.around.pmg.moving = u.around.pmg.moving := by rw [h]
  have h5 : t.around.profiles = u.around.profiles := by rw [h]
  have h6 : t.around.poscfg = u.around.poscfg := by rw [h]
  simp only [State.around] at h3 h4 h5 h6
  simp only [State.remInputs, State.profileOf, h1, h3, h4, h5, h6]

/-- A handling of the positions that a test picks, the test reading the surroundings alone. -/
theorem oneByOne_handle (f : RemInputs → Reminder → Reminder × List ChimeCall) (sel : State → Pos → Bool)
    (hs : ∀ t u p, t.around = u.around → sel t p = sel u p) :
    OneByOne fun t p => if sel t p then t.handleAt f p else t where
  around t p := by split <;> rfl
  other t p q h := by
    split
    · exact t.applyReminder_view_ne h _
    · rfl
  same t u p ha hv := by
    have h1 : t.positions[p] = u.positions[p] := congrArg PosView.record hv
    simp only [hs t u p ha]
    split
    · rw [State.handleAt, State.handleAt, State.applyReminder_view_self, State.applyReminder_view_self, hv,
        State.remInputs_congr ha hv, h1]
    · exact hv
  leaves t p := by split <;> exact .inl rfl

/-! ### Every position -/

/-- A handling of the picked positions: each takes its outcome by the inputs before, and nothing else changes. -/
theorem handle_fold (f : RemInputs → Reminder → Reminder × List ChimeCall) (sel : State → Pos → Bool)
    (hs : ∀ t u p, t.around = u.around → sel t p = sel u p) (s : State) :
    let t := (List.finRange 16).foldl (fun t p => if sel t p then t.handleAt f p else t) s
    t.around = s.around ∧ t.pmg = s.pmg ∧
      ∀ q, t.view q =
        if sel s q then (s.view q).handled q (f (s.remInputs q) s.positions[q].rem) else s.view q := by
  intro t
  obtain ⟨h1, h2, h3⟩ := (oneByOne_handle f sel hs).fold _ nodup_positions s
  have hp : t.pmg = s.pmg := by
    have : ∀ (ps : List Pos) (u : State),
        (ps.foldl (fun t p => if sel t p then t.handleAt f p else t) u).pmg = u.pmg := by
      intro ps
      induction ps with
      | nil => intro u; rfl
      | cons p ps ih => intro u; rw [List.foldl_cons, ih]; split <;> rfl
    exact this _ _
  refine ⟨h1, hp, fun q => ?_⟩
  rw [h2, if_pos (List.mem_finRange q)]
  split
  · exact s.applyReminder_view_self q _
  · rfl

/-- RME evaluates every position (R137). -/
theorem State.evalAll_spec (s : State) :
    s.evalAll.around = s.around ∧ s.evalAll.pmg = s.pmg ∧
      ∀ q, s.evalAll.view q = (s.view q).handled q (evaluate (s.remInputs q) s.positions[q].rem) := by
  exact handle_fold evaluate (fun _ _ => true) (fun _ _ _ _ => rfl) s

/-- RME handles a tick at every position (R141). -/
theorem State.tickAll_spec (s : State) :
    s.tickAll.around = s.around ∧ s.tickAll.pmg = s.pmg ∧
      ∀ q, s.tickAll.view q = (s.view q).handled q (tickReminder (s.remInputs q) s.positions[q].rem) := by
  exact handle_fold tickReminder (fun _ _ => true) (fun _ _ _ _ => rfl) s

/-- RME evaluates the positions that use a PROFILE entry (R152). -/
theorem State.evalProfile_spec (s : State) (i : Fin 4) :
    (s.evalProfile i).around = s.around ∧ (s.evalProfile i).pmg = s.pmg ∧
      ∀ q, (s.evalProfile i).view q =
        if s.poscfg[q].profile = i then (s.view q).handled q (evaluate (s.remInputs q) s.positions[q].rem)
        else s.view q := by
  have := handle_fold evaluate (fun t p => decide (t.poscfg[p].profile = i)) (fun t u p h => by
    have h' : t.around.poscfg = u.around.poscfg := by rw [h]
    simp only [State.around] at h'
    simp only [h']) s
  simpa [State.evalProfile, State.evalAt_eq] using this

/-! ### The calls to CHD -/

/-- The request that a call leaves standing or not. -/
def ChimeCall.stands : ChimeCall → Bool
  | .raise _ => true
  | .withdraw => false

/-- After a handling the request stands exactly in an ON phase, when it did before (R149). -/
abbrev callsStand (r : Reminder) (out : Reminder × List ChimeCall) : Prop :=
  (out.2.getLast?.map ChimeCall.stands).getD r.sounding = out.1.sounding

theorem leave_stands (r n : Reminder) (h : n.sounding = false) : callsStand r (n, r.leave) := by
  unfold callsStand Reminder.leave
  by_cases hs : r.sounding
  · simp [hs, h, ChimeCall.stands]
  · simp only [Bool.not_eq_true] at hs
    simp [hs, h]

theorem audibleTest_stands (prof : ProfileEntry) (m : Bool) (x r : Reminder) (h : r.sounding = false) :
    callsStand r (audibleTest prof m x) := by
  unfold audibleTest callsStand
  split
  · exact h
  split
  · simp [Reminder.enterOn, Reminder.sounding, ChimeCall.stands]
  · exact h

theorem enterVisual_stands (prof : ProfileEntry) (m : Bool) (x r : Reminder) (h : r.sounding = false) :
    callsStand r (enterVisual prof m x) := by
  unfold enterVisual
  dsimp only
  split
  · exact audibleTest_stands prof m _ r h
  · exact h

theorem enterGrace_stands (prof : ProfileEntry) (m : Bool) (x r : Reminder) (h : r.sounding = false) :
    callsStand r (enterGrace prof m x) := by
  unfold enterGrace
  dsimp only
  split
  · exact enterVisual_stands prof m _ r h
  · exact h

theorem callsStand_self (r : Reminder) : callsStand r (r, []) := by simp [callsStand]

theorem evaluateUnbelted_stands (prof : ProfileEntry) (m : Bool) (r : Reminder) :
    callsStand r (evaluateUnbelted prof m r) := by
  have hn : r.state ≠ .audible → r.sounding = false := by intro h; simp [Reminder.sounding, h]
  unfold evaluateUnbelted
  split
  · exact enterGrace_stands prof m r r (hn (by simp [*]))
  · exact enterGrace_stands prof m r r (hn (by simp [*]))
  · split
    · exact enterVisual_stands prof m r r (hn (by simp [*]))
    · exact enterGrace_stands prof m r r (hn (by simp [*]))
  · exact callsStand_self r
  · split
    · exact audibleTest_stands prof m r r (hn (by simp [*]))
    · exact callsStand_self r
  · split
    · exact leave_stands r _ (by simp [Reminder.expire, Reminder.sounding])
    split
    · exact leave_stands r _ (by simp [Reminder.enterQuiet, Reminder.sounding])
    · exact callsStand_self r
  · exact callsStand_self r

theorem decided_ne_audible {i : RemInputs} {st : RemState} (h : decided i = some st) : st ≠ .audible := by
  unfold decided at h
  split at h
  · cases h; simp
  split at h
  · cases h; simp
  split at h
  · cases h; simp
  split at h
  · cases h; simp
  · cases h

theorem evaluate_stands (i : RemInputs) (r : Reminder) : callsStand r (evaluate i r) := by
  unfold evaluate
  split
  · rename_i st hst
    split
    · exact callsStand_self r
    · exact leave_stands r _ (by simp [Reminder.sounding])
  · exact evaluateUnbelted_stands _ _ r

theorem countTick_stands (prof : ProfileEntry) (m : Bool) (r : Reminder) : callsStand r (countTick prof m r) := by
  have hn : r.state ≠ .audible → r.sounding = false := by intro h; simp [Reminder.sounding, h]
  unfold countTick
  dsimp only
  split
  · rename_i h
    split
    · exact enterVisual_stands prof m _ r (hn (by simp [h]))
    · simp [callsStand, Reminder.sounding, h]
  · rename_i h
    split
    · exact callsStand_self r
    split
    · exact audibleTest_stands prof m _ r (hn (by simp [h]))
    · simp [callsStand, Reminder.sounding, h]
  · rename_i h1 h2
    split
    · unfold onComplete
      dsimp only
      split
      · simp [callsStand, Reminder.enterQuiet, Reminder.sounding, ChimeCall.stands]
      split
      · simp [callsStand, Reminder.enterOn, Reminder.sounding, ChimeCall.stands]
      · simp [callsStand, Reminder.sounding, ChimeCall.stands]
    · simp [callsStand, Reminder.sounding, h1, h2]
  · split
    · simp [callsStand, Reminder.enterOn, Reminder.sounding, ChimeCall.stands]
    · simp [callsStand, Reminder.sounding, *]
  · exact callsStand_self r

theorem tickReminder_stands (i : RemInputs) (r : Reminder) : callsStand r (tickReminder i r) := by
  unfold tickReminder
  dsimp only
  have h1 := evaluate_stands i r
  split
  · have h2 := countTick_stands i.profile i.moving (evaluate i r).1
    unfold callsStand at *
    rw [List.getLast?_append]
    generalize (countTick i.profile i.moving (evaluate i r).1) = c at *
    cases hc : c.2.getLast? with
    | none => rw [hc] at h2; simpa [← h2] using h1
    | some x => rw [hc] at h2; simpa using h2
  · exact h1

/-- With the ignition off an evaluation leaves OFF (R138, test 1). -/
theorem evaluate_off {i : RemInputs} (h : i.ignition = false) (r : Reminder) : (evaluate i r).1.state = .off := by
  have : decided i = some .off := by simp [decided, h]
  unfold evaluate
  rw [this]
  dsimp only
  split
  · rename_i e; exact e.symm
  · rfl

end Sys2Proof.Machine
end

