-- ==== Sys2Proof/Laws/Power.lean ====
section
/-! SUPPORT. PMG and the end of a step: what delivery and settling change, and the entries to SLEEP and to RUN in the
terms of the claims. -/

namespace Sys2Proof.Machine

/-! ### The end of a step -/

/-- Delivery changes CHD, empties the way to it and uses a free value. -/
theorem deliver_shape (t : State) :
    deliver t = { t with chd := (deliver t).chd, toChime := [], free := (deliver t).free } := by
  unfold deliver
  split
  · rename_i h
    cases t
    simp only at h
    subst h
    rfl
  · rfl

/-- With no emptied watch the end of a step is the delivery. -/
theorem State.settle_eq_deliver {t : State} (h : t.pmg.power = .parkWatch → t.pmg.watchSet ≠ []) :
    t.settle = deliver t := by
  rw [State.settle, deliver_shape t]
  exact if_neg fun e => h e.1 e.2

/-- A state that differs from `s` in what the views show, and not in the watch set, settles to one that differs in
position records, image, CHD and the free counter. -/
theorem State.settle_of_around {s t : State} (ha : t.around = s.around) (hm : t.pmg = s.pmg) (hc : s.toChime = [])
    (hp : s.pmg.power = .parkWatch → s.pmg.watchSet ≠ []) :
    t.settle = { s with
      positions := t.positions, pnd := { s.pnd with image := t.pnd.image }, chd := t.settle.chd
      free := t.settle.free } := by
  obtain ⟨P, I, X, ht⟩ : ∃ P I X,
      t = { s with positions := P, pnd := { s.pnd with image := I }, toChime := X } := by
    refine ⟨t.positions, t.pnd.image, t.toChime, (State.eq_of_around ha).trans ?_⟩
    rw [show ({ s.pmg with watchSet := t.pmg.watchSet } : Pmg) = s.pmg by rw [hm]]
  rw [State.settle_eq_deliver (t := t) (by rw [hm]; exact hp)]
  have d := deliver_shape t
  generalize (deliver t).chd = c at d ⊢
  generalize (deliver t).free = f at d ⊢
  rw [d]
  subst ht
  cases s
  simp only at hc
  subst hc
  rfl

theorem State.settle_positions {t : State} (h : t.pmg.power = .parkWatch → t.pmg.watchSet ≠ []) :
    t.settle.positions = t.positions ∧ t.settle.pnd = t.pnd := by
  rw [State.settle_eq_deliver h, deliver_shape t]
  exact ⟨rfl, rfl⟩

/-- Outside PARK_WATCH a state that differs from `s` in what the views show settles to one that differs in position
records, image, CHD, the free counter and the watch set. -/
theorem State.settle_of_views {s t : State} (ha : t.around = s.around) (hc : s.toChime = [])
    (hp : s.pmg.power ≠ .parkWatch) :
    t.settle = { s with
      positions := t.positions, pnd := { s.pnd with image := t.pnd.image }, chd := t.settle.chd
      free := t.settle.free, pmg := { s.pmg with watchSet := t.pmg.watchSet } } := by
  have ht := State.eq_of_around ha
  have hpow : t.pmg.power = s.pmg.power := by rw [ht]
  rw [State.settle_eq_deliver (t := t) (by rw [hpow]; exact fun e => absurd e hp)]
  have d := deliver_shape t
  generalize (deliver t).chd = c at d ⊢
  generalize (deliver t).free = f at d ⊢
  rw [d]
  generalize t.positions = P at ht ⊢
  generalize t.pnd.image = I at ht ⊢
  generalize t.toChime = X at ht ⊢
  generalize t.pmg.watchSet = W at ht ⊢
  subst ht
  cases s
  simp only at hc
  subst hc
  rfl

/-! ### Entries to SLEEP and to RUN -/

theorem Cfs.suspend_eq (c : Cfs) : c.suspend = { c with op := c.op.stopped } := by
  obtain ⟨_, _, _, _, op, _, _⟩ := c
  cases op <;> rfl

theorem Cfs.restart_eq (c : Cfs) : c.restart = { c with op := c.op.restarted } := by
  obtain ⟨_, _, _, _, op, _, _⟩ := c
  cases op <;> rfl

/-- Entry to SLEEP in the terms of the claims (R183). -/
theorem State.enterSleep_eq (s : State) : s.enterSleep = s.asleep := by
  unfold State.enterSleep State.asleep
  rw [Cfs.suspend_eq]
  rfl

theorem Pnd.enterRun_of_stopped {n : Pnd} (h : n.scanning = false) :
    n.enterRun = { n with scanning := true, flash := .a, copy := some n.cfg, frameTest := n.test, common := 0,
                          pcom := none, plin := 0 } := by
  simp [Pnd.enterRun, h, Pnd.frameStart]

theorem Lsu.startScan_full (l : Lsu) : l.startScan true true (some l.cfg.interval) = l.scanning := rfl

/-- The blocks start at an entry to RUN with LSU and the panel at rest (R171). -/
theorem State.startBlocks_eq (s : State) (h : s.resting) (hp : s.pmg.power = .run) :
    s.startBlocks = { s with
      sga := s.sga.started
      sgb := s.sgb.started
      tick := some (tickPeriod s.pmg.timing.tick)
      pnd := { s.pnd with scanning := true, flash := .a, copy := some s.pnd.cfg, frameTest := s.pnd.test, common := 0,
                          pcom := none, plin := 0 }
      lsu := s.lsu.scanning } := by
  obtain ⟨h1, h2⟩ := h
  unfold State.startBlocks State.requestScan
  rw [Pnd.enterRun_of_stopped h2]
  rw [if_pos (by exact h1)]
  unfold State.startScan
  dsimp only
  rw [hp]
  rfl

/-- A wake in the terms of the claims (R184). -/
theorem State.wake_eq (s : State) (add : Causes → Causes) (h : s.resting) :
    s.wake add = s.woken { s.pmg with causes := add s.pmg.causes } := by
  refine (State.startBlocks_eq _ (by exact h) rfl).trans ?_
  unfold State.leaveSleep State.woken State.modPmg
  rw [Cfs.restart_eq]
  rfl

end Sys2Proof.Machine
end

