-- ==== Sys2Proof/Laws/Segments.lean ====
section
/-! SUPPORT. The walk set and the visits of a watch pass; the pass-through records: what answering does to each of them,
and what the end of a poll leaves. -/

namespace Sys2Proof.Machine

theorem walkFrom_seen {ring : Vector RingEntry 12} {k : Nat} {e i : RingIx} {seen : List RingIx} (h : i ∈ seen) :
    i ∈ walkFrom ring k e seen := by
  induction k generalizing e seen with
  | zero => exact h
  | succ k ih =>
    unfold walkFrom
    split
    · exact h
    · split
      · exact List.mem_append_left _ h
      · exact ih (List.mem_append_left _ h)

/-- The walk set begins with the entry at head (R87). -/
theorem Segment.head_mem_walkSet (g : Segment) : g.cfg.head ∈ g.walkSet := by
  unfold Segment.walkSet walkFrom
  split
  · assumption
  · split
    · exact List.mem_append_right _ (List.mem_singleton_self _)
    · exact walkFrom_seen (List.mem_append_right _ (List.mem_singleton_self _))

/-- A pass over entries of which at most `k` are not visited ends within `k` visits: more fuel changes nothing (R104). -/
theorem passVisit_fuel {ring : Vector RingEntry 12} {polls : RingIx → Bool} {k : Nat} {e : Option RingIx}
    {seen : List RingIx} (h : (Finset.univ \ seen.toFinset).card ≤ k) :
    passVisit ring polls (k + 1) e seen = passVisit ring polls k e seen := by
  induction k generalizing e seen with
  | zero =>
    cases e with
    | none => rfl
    | some e =>
      have : e ∈ seen := by
        have := Finset.card_eq_zero.mp (Nat.le_zero.mp h)
        simpa using Finset.sdiff_eq_empty_iff_subset.mp this (Finset.mem_univ e)
      simp only [passVisit, if_pos this]
  | succ k ih =>
    cases e with
    | none => rfl
    | some e =>
      rw [passVisit]
      conv_rhs => rw [passVisit]
      by_cases he : e ∈ seen
      · rw [if_pos he, if_pos he]
      · have hc : (Finset.univ \ (seen ++ [e]).toFinset).card ≤ k := by
          have hs : (Finset.univ \ (seen ++ [e]).toFinset) ⊂ (Finset.univ \ seen.toFinset) := by
            refine Finset.ssubset_iff_of_subset (fun x => ?_) |>.mpr ⟨e, ?_, ?_⟩
            · simp
            · simpa using he
            · simp
          have := Finset.card_lt_card hs
          omega
        simp only [if_neg he, ih hc]

theorem answerAll_forall (pick : PassRecord → Bool) (st : AnswerStatus) (body : List Byte) (n : Nat)
    (rs : List PassRecord) :
    List.Forall₂ (fun r r' => if pick r then ∃ k, r' = { r with state := .answered st body k } else r' = r) rs
      (answerAll pick st body n rs) := by
  induction rs generalizing n with
  | nil => exact .nil
  | cons r rs ih =>
    unfold answerAll
    split
    · rename_i h
      refine .cons ?_ (ih (n + 1))
      rw [if_pos h]
      exact ⟨n, rfl⟩
    · rename_i h
      refine .cons ?_ (ih n)
      rw [if_neg h]

theorem answerAll_length (pick : PassRecord → Bool) (st : AnswerStatus) (body : List Byte) (n : Nat)
    (rs : List PassRecord) : (answerAll pick st body n rs).length = rs.length :=
  ((answerAll_forall pick st body n rs).length_eq).symm

theorem answerAll_none {pick : PassRecord → Bool} {st : AnswerStatus} {body : List Byte} {n : Nat}
    {rs : List PassRecord} (h : ∀ r ∈ rs, pick r = false) : answerAll pick st body n rs = rs := by
  induction rs with
  | nil => rfl
  | cons r rs ih =>
    unfold answerAll
    rw [if_neg (by simp [h r (List.mem_cons_self ..)]), ih fun q hq => h q (List.mem_cons_of_mem _ hq)]

/-- With at most one record picked, it is answered at the first rank and every other stands. -/
theorem answerAll_one {pick : PassRecord → Bool} {st : AnswerStatus} {body : List Byte} {n : Nat}
    {rs : List PassRecord} (h : rs.countP pick ≤ 1) :
    answerAll pick st body n rs = rs.map fun r => if pick r then { r with state := .answered st body n } else r := by
  induction rs with
  | nil => rfl
  | cons r rs ih =>
    unfold answerAll
    by_cases hr : pick r
    · rw [List.countP_cons_of_pos hr] at h
      have h0 : ∀ q ∈ rs, pick q = false := by
        have : rs.countP pick = 0 := by omega
        intro q hq
        simpa using List.countP_eq_zero.mp this q hq
      have h1 : (rs.map fun r => if pick r then { r with state := .answered st body n } else r) = rs := by
        refine (List.map_congr_left fun q hq => ?_).trans (List.map_id _)
        rw [if_neg (by simp [h0 q hq])]
        rfl
      rw [if_pos hr, List.map_cons, if_pos hr, answerAll_none h0, h1]
    · rw [List.countP_cons_of_neg hr] at h
      rw [if_neg hr, List.map_cons, if_neg hr, ih h]

/-- The end of a poll in the terms of the claims, where at most one record is SENT (R92, R99, R101). -/
theorem Segment.pollOver_eq {g : Segment} (h : g.sentWhole) (st : AnswerStatus) (body : List Byte) :
    (g.answerSent st body).endPoll = g.pollOver st body := by
  have : answerAll (fun r => decide (r.state = .sent)) st body (g.records.countP PassRecord.isAnswered) g.records =
      g.records.map fun r =>
        if r.state = .sent then { r with state := .answered st body (g.records.countP PassRecord.isAnswered) } else r := by
    rw [answerAll_one h.1]
    simp only [decide_eq_true_eq]
  simp only [Segment.endPoll, Segment.answerSent, Segment.answer, this, Segment.pollOver, endOfPass]

/-- Answering QUEUED records in the terms of the claims (R96, R98, R102). -/
theorem queuedAnswered_answer (g : Segment) (st : AnswerStatus) (pick : PassRecord → Bool) :
    queuedAnswered st pick g.records (g.answer (fun r => r.state = .queued && pick r) st []).records := by
  refine (answerAll_forall _ st [] _ g.records).imp fun r r' h => ?_
  by_cases hp : r.state = .queued ∧ pick r
  · rw [if_pos hp]
    rwa [if_pos (by simp [hp])] at h
  · rw [if_neg hp]
    rwa [if_neg (by simpa using hp)] at h

/-- Attaching keeps every record but the oldest QUEUED one of the slot, which becomes SENT (R100). -/
theorem attach_split {slot : Slot} {a b : List PassRecord} {r : PassRecord}
    (ha : ∀ q ∈ a, ¬(q.state = .queued ∧ q.slot = slot)) (hr : r.state = .queued ∧ r.slot = slot) :
    attach slot (a ++ r :: b) = a ++ { r with state := .sent } :: b := by
  induction a with
  | nil => rw [List.nil_append, attach, if_pos hr]; rfl
  | cons q a ih =>
    rw [List.cons_append, attach, if_neg (ha q (List.mem_cons_self ..)),
      ih fun x hx => ha x (List.mem_cons_of_mem _ hx)]
    rfl

theorem attach_none {slot : Slot} {rs : List PassRecord} (h : ∀ q ∈ rs, ¬(q.state = .queued ∧ q.slot = slot)) :
    attach slot rs = rs := by
  induction rs with
  | nil => rfl
  | cons q rs ih =>
    rw [attach, if_neg (h q (List.mem_cons_self ..)), ih fun x hx => h x (List.mem_cons_of_mem _ hx)]

end Sys2Proof.Machine
end

