-- ==== Sys2Proof/Laws/Store.lean ====
section
/-! SUPPORT. The load of a table, entry by entry, and the words of protection and summary, bit by bit. -/

namespace Sys2Proof.Machine

/-- What holds of a table of invalid entries and is kept where an entry that conflicts with nothing is put over one not
yet taken holds of the loaded table (R206). -/
theorem loadKept_induct {α : Type} {n : Nat} {invalid : α} {conflict : Vector α n → Fin n → α → Bool}
    {stored : Vector (Option α) n} (P : Vector α n → Prop) (h0 : P (Vector.replicate n invalid))
    (hs : ∀ (kept : Vector α n) (i : Fin n) (e : α), P kept → kept[i] = invalid → stored[i] = some e →
      conflict kept i e = false → P (put kept i e)) :
    P (loadKept invalid conflict stored) := by
  unfold loadKept
  suffices h : ∀ (is : List (Fin n)) (kept : Vector α n), is.Nodup → (∀ i ∈ is, kept[i] = invalid) → P kept →
      P (is.foldl (fun kept i =>
        match stored[i] with
        | some e => if conflict kept i e then kept else put kept i e
        | none => kept) kept) from
    h _ _ (List.nodup_finRange n) (fun i _ => by simp) h0
  intro is
  induction is with
  | nil => intro kept _ _ h; exact h
  | cons i is ih =>
    intro kept hn hk h
    obtain ⟨hi, hn⟩ := List.nodup_cons.mp hn
    rw [List.foldl_cons]
    have hk' : ∀ j ∈ is, kept[j] = invalid := fun j hj => hk j (List.mem_cons_of_mem _ hj)
    split
    · rename_i e he
      split
      · exact ih _ hn hk' h
      · rename_i hc
        refine ih _ hn (fun j hj => ?_) (hs kept i e h (hk i (List.mem_cons_self ..)) he (by simpa using hc))
        have : j ≠ i := by rintro rfl; exact hi hj
        rw [put_get_ne _ _ this]
        exact hk' j hj
    · exact ih _ hn hk' h

/-- Every loaded entry is the invalid form or the stored record (R206). -/
theorem loadKept_get {α : Type} {n : Nat} (invalid : α) (conflict : Vector α n → Fin n → α → Bool)
    (stored : Vector (Option α) n) (i : Fin n) :
    (loadKept invalid conflict stored)[i] = invalid ∨ stored[i] = some (loadKept invalid conflict stored)[i] := by
  refine loadKept_induct (conflict := conflict) (stored := stored)
    (fun t => ∀ i : Fin n, t[i] = invalid ∨ stored[i] = some t[i]) (fun i => .inl (by simp)) ?_ i
  intro kept j e hk _ he _ i
  by_cases h : i = j
  · subst h; rw [put_get_self]; exact .inr he
  · rw [put_get_ne _ _ h]; exact hk i

theorem loadPlain_get {α : Type} {n : Nat} (d : α) (stored : Vector (Option α) n) (i : Fin n) :
    (loadPlain d stored)[i] = stored[i].getD d := by simp [loadPlain]

/-- The lock forces region 1 and no other (R206, R211). -/
theorem effectiveOf_getLsbD (lock : Bool) (word : BitVec 4) (r : Fin 4) :
    (effectiveOf lock word).getLsbD r.val = (word.getLsbD r.val || (lock && r.val = 1)) := by
  revert lock word r; decide

/-- Bit r of the summary is region r's (R206). -/
theorem Store.summary_getLsbD (s : Store) (r : Fin 4) : s.summary.getLsbD r.val = s.regionErased r := by
  have h : ∀ (a b c d : Bool) (r : Fin 4),
      (BitVec.ofNat 4 (a.toNat + 2 * b.toNat + 4 * c.toNat + 8 * d.toNat)).getLsbD r.val =
        (match r with | 0 => a | 1 => b | 2 => c | 3 => d) := by decide
  rw [Store.summary, h]
  revert r
  intro r
  match r with
  | 0 => rfl
  | 1 => rfl
  | 2 => rfl
  | 3 => rfl

end Sys2Proof.Machine
end

