-- ==== Sys2Proof/Laws/Units.lean ====
section
/-! SUPPORT. Positions cleared, lost and fed: what each does at its position, and what the clearing and the losing of
every position of a slot do; and which slots a segment's loss takes to LOST. -/

namespace Sys2Proof.Machine

/-! ### Clearing (R4) -/

/-- What the view of a position becomes when it is cleared. -/
def PosView.cleared (v : PosView) (p : Pos) : PosView :=
  { record := Position.reset, glyph := .dark, events := v.events ++ v.record.rem.leave.map (ChimeCall.event p)
    watched := false }

theorem State.clearPos_around (s : State) (p : Pos) : (s.clearPos p).around = s.around := rfl

theorem State.clearPos_view_self (s : State) (p : Pos) : (s.clearPos p).view p = (s.view p).cleared p := by
  have h1 : (s.clearPos p).positions[p] = Position.reset := put_get_self _ _ _
  have h2 : (s.clearPos p).pnd.image[p] = Glyph.dark := put_get_self _ _ _
  have h3 : (s.clearPos p).toChime.filter (fun e => e.pos = p) =
      (s.view p).events ++ (s.view p).record.rem.leave.map (ChimeCall.event p) := by
    show (s.toChime ++ s.positions[p].rem.leave.map (ChimeCall.event p)).filter _ = _
    rw [List.filter_append, filter_event_self]
    rfl
  have h4 : decide (p ∈ (s.clearPos p).pmg.watchSet) = false := by simp [State.clearPos]
  exact (PosView.mk.injEq ..).mpr ⟨h1, h2, h3, h4⟩

theorem State.clearPos_view_ne (s : State) {p q : Pos} (h : q ≠ p) : (s.clearPos p).view q = s.view q := by
  have h1 : (s.clearPos p).positions[q] = s.positions[q] := put_get_ne _ _ h
  have h2 : (s.clearPos p).pnd.image[q] = s.pnd.image[q] := put_get_ne _ _ h
  have h3 : (s.clearPos p).toChime.filter (fun e => e.pos = q) = s.toChime.filter fun e => e.pos = q := by
    show (s.toChime ++ s.positions[p].rem.leave.map (ChimeCall.event p)).filter _ = _
    rw [List.filter_append, filter_event_ne h, List.append_nil]
  have h4 : decide (q ∈ (s.clearPos p).pmg.watchSet) = decide (q ∈ s.pmg.watchSet) := by simp [State.clearPos, h]
  exact (PosView.mk.injEq ..).mpr ⟨h1, h2, h3, h4⟩

/-- A clearing of the positions that a test of the record picks. -/
theorem oneByOne_clear (sel : Position → Bool) :
    OneByOne fun t p => if sel t.positions[p] then t.clearPos p else t where
  around t p := by split <;> rfl
  other t p q h := by
    split
    · exact t.clearPos_view_ne h
    · rfl
  same t u p _ hv := by
    have h1 : t.positions[p] = u.positions[p] := congrArg PosView.record hv
    simp only [h1]
    split
    · rw [State.clearPos_view_self, State.clearPos_view_self, hv]
    · exact hv
  leaves t p := by
    split
    · exact .inr rfl
    · exact .inl rfl

/-- Clearing every position that a slot feeds clears these and touches no other (R4). -/
theorem State.clearFedBy_spec (s : State) (slot : Slot) :
    (s.clearFedBy slot).around = s.around ∧
      (∀ q, (s.clearFedBy slot).view q = if s.positions[q].fedBy slot then (s.view q).cleared q else s.view q) ∧
        (s.clearFedBy slot).pmg.watchSet = s.pmg.watchSet.filter fun q => !s.positions[q].fedBy slot := by
  obtain ⟨h1, h2, h3⟩ := (oneByOne_clear fun r => r.fedBy slot).fold _ nodup_positions s
  unfold State.clearFedBy
  generalize (List.finRange 16).foldl (fun (t : State) p => if t.positions[p].fedBy slot then t.clearPos p else t) s = t
    at h1 h2 h3 ⊢
  have hv : ∀ q, t.view q =
      if s.positions[q].fedBy slot then (s.view q).cleared q else s.view q := by
    intro q
    refine (h2 q).trans ?_
    rw [if_pos (List.mem_finRange q)]
    split
    · exact s.clearPos_view_self q
    · rfl
  refine ⟨h1, hv, ?_⟩
  rw [h3]
  apply List.filter_congr
  intro q hq
  have hw := congrArg PosView.watched (hv q)
  by_cases h : s.positions[q].fedBy slot = true
  · rw [if_pos h] at hw
    exact hw.trans (by rw [h]; rfl)
  · rw [if_neg h] at hw
    exact hw.trans ((decide_eq_true hq).trans (by rw [Bool.eq_false_iff.mpr h]; rfl))

/-! ### Losing (R10) -/

/-- What the view of a position becomes when its source is lost. -/
def PosView.lost (v : PosView) (p : Pos) (i : RemInputs) : PosView :=
  { v with record := v.record.lose }.handled p (evaluate { i with presence := .sourceLost } v.record.rem)

/-- One position of a slot lost: its record and the evaluation. -/
def State.losePos (s : State) (p : Pos) : State := (s.setPos p s.positions[p].lose).evalAt p

theorem State.losePos_around (s : State) (p : Pos) : (s.losePos p).around = s.around := rfl

theorem State.setPos_view_self (s : State) (p : Pos) (r : Position) :
    (s.setPos p r).view p = { s.view p with record := r } := by
  have h1 : (s.setPos p r).positions[p] = r := put_get_self _ _ _
  exact (PosView.mk.injEq ..).mpr ⟨h1, rfl, rfl, rfl⟩

theorem State.setPos_view_ne (s : State) {p q : Pos} (r : Position) (h : q ≠ p) :
    (s.setPos p r).view q = s.view q := by
  have h1 : (s.setPos p r).positions[q] = s.positions[q] := put_get_ne _ _ h
  exact (PosView.mk.injEq ..).mpr ⟨h1, rfl, rfl, rfl⟩

/-- The inputs of an evaluation after a record is replaced. -/
theorem State.setPos_remInputs (s : State) (p : Pos) (r : Position) :
    (s.setPos p r).remInputs p = { s.remInputs p with presence := r.presence, cls := r.cls, buckle := r.buckle } := by
  have h1 : (s.setPos p r).positions[p] = r := put_get_self _ _ _
  simp only [State.remInputs, h1]
  rfl

theorem State.losePos_view_self (s : State) (p : Pos) :
    (s.losePos p).view p = (s.view p).lost p (s.remInputs p) := by
  have h1 : (s.setPos p s.positions[p].lose).positions[p] = s.positions[p].lose := put_get_self _ _ _
  unfold State.losePos State.evalAt
  rw [State.applyReminder_view_self, State.setPos_view_self, State.setPos_remInputs, h1]
  rfl

theorem State.losePos_view_ne (s : State) {p q : Pos} (h : q ≠ p) : (s.losePos p).view q = s.view q :=
  (State.applyReminder_view_ne _ h _).trans (State.setPos_view_ne _ _ h)

theorem oneByOne_lose (slot : Slot) :
    OneByOne fun t p => if t.positions[p].losable slot then t.losePos p else t where
  around t p := by split <;> rfl
  other t p q h := by
    split
    · exact t.losePos_view_ne h
    · rfl
  same t u p ha hv := by
    have h1 : t.positions[p] = u.positions[p] := congrArg PosView.record hv
    simp only [h1]
    split
    · rw [State.losePos_view_self, State.losePos_view_self, hv, State.remInputs_congr ha hv]
    · exact hv
  leaves t p := by split <;> exact .inl rfl

/-- A handling that leaves the watch set alone at every position leaves it alone. -/
theorem fold_watchSet {f : State → Pos → State} (h : ∀ t p, (f t p).pmg = t.pmg) (ps : List Pos) (s : State) :
    (ps.foldl f s).pmg = s.pmg := by
  induction ps generalizing s with
  | nil => rfl
  | cons p ps ih => rw [List.foldl_cons, ih, h]

/-- Losing every LIVE or HELD position that a slot feeds loses these and touches no other (R10). -/
theorem State.loseFedBy_spec (s : State) (slot : Slot) :
    (s.loseFedBy slot).around = s.around ∧ (s.loseFedBy slot).pmg = s.pmg ∧
      ∀ q, (s.loseFedBy slot).view q =
        if s.positions[q].losable slot then (s.view q).lost q (s.remInputs q) else s.view q := by
  obtain ⟨h1, h2, _⟩ := (oneByOne_lose slot).fold _ nodup_positions s
  refine ⟨h1, fold_watchSet (fun t p => by split <;> rfl) _ s, fun q => ?_⟩
  refine (h2 q).trans ?_
  rw [if_pos (List.mem_finRange q)]
  split
  · exact s.losePos_view_self q
  · rfl

/-- The record of every position after a slot went LOST (R10). -/
theorem State.loseFedBy_positions (s : State) (slot : Slot) (q : Pos) :
    (s.loseFedBy slot).positions[q] = if s.positions[q].losable slot then s.lostPosition q else s.positions[q] := by
  have h := congrArg PosView.record ((s.loseFedBy_spec slot).2.2 q)
  rw [apply_ite PosView.record] at h
  exact h

/-- Every glyph follows its reminder where RME evaluates every position (R137, R150). -/
theorem State.evalAll_glyphsFollow (s : State) : s.glyphsFollow s.evalAll := by
  intro p
  have h := (s.evalAll_spec).2.2 p
  have h1 : s.evalAll.positions[p] = s.positions[p].reminded (evaluate (s.remInputs p) s.positions[p].rem).1 :=
    congrArg PosView.record h
  have h2 := congrArg PosView.glyph h
  rw [h1]
  exact h2

/-! ### Slots lost (R124, R127) -/

@[simp] theorem State.dropRecords_slots (s : State) (i : Slot) : (s.dropRecords i).slots = s.slots := by
  unfold State.dropRecords
  split
  · exact State.modSeg_slots ..
  · rfl

@[simp] theorem State.around_slots (s : State) : s.around.slots = s.slots := rfl

@[simp] theorem State.loseFedBy_slots (s : State) (i : Slot) : (s.loseFedBy i).slots = s.slots := by
  rw [← State.around_slots, (s.loseFedBy_spec i).1, State.around_slots]

/-- The record of a slot that goes LOST (R124). -/
def SlotRec.gone (r : SlotRec) : SlotRec :=
  { r with state := .lost, lost := 0, events := r.events ||| 4, owed := true }

/-- A slot that goes LOST changes its own record and no other slot's (R124). -/
theorem State.loseSlot_slots (s : State) (i : Slot) : (s.loseSlot i).slots = put s.slots i s.slots[i].gone := by
  have h : ((s.dropRecords i).loseFedBy i).slots = s.slots :=
    (State.loseFedBy_slots _ i).trans (s.dropRecords_slots i)
  show put ((s.dropRecords i).loseFedBy i).slots i _ = _
  simp only [h]
  rfl

/-- The loss of a segment takes its ACTIVE slots to LOST and leaves every other slot (R127). -/
theorem State.loseSegment_slots (s : State) (g : Seg) (i : Slot) :
    (s.loseSegment g).slots[i] =
      if s.slots[i].state = .active ∧ s.slots[i].lastSeg = some g then s.slots[i].gone else s.slots[i] := by
  have key : ∀ (is : List Slot) (t : State), is.Nodup →
      (is.foldl (fun t j => if t.slots[j].state = .active ∧ t.slots[j].lastSeg = some g then t.loseSlot j else t)
        t).slots[i] =
        if i ∈ is ∧ t.slots[i].state = .active ∧ t.slots[i].lastSeg = some g then t.slots[i].gone
        else t.slots[i] := by
    intro is
    induction is with
    | nil => intro t _; simp
    | cons j js ih =>
      intro t hn
      obtain ⟨hj, hn⟩ := List.nodup_cons.mp hn
      rw [List.foldl_cons, ih _ hn]
      by_cases e : i = j
      · subst e
        rw [if_neg (fun h => hj h.1)]
        by_cases c : t.slots[i].state = .active ∧ t.slots[i].lastSeg = some g
        · rw [if_pos c, if_pos ⟨List.mem_cons_self .., c⟩, State.loseSlot_slots]
          exact put_get_self _ _ _
        · rw [if_neg c, if_neg (fun h => c h.2)]
      · have h : (if t.slots[j].state = .active ∧ t.slots[j].lastSeg = some g then t.loseSlot j else t).slots[i] =
            t.slots[i] := by
          split
          · exact (congrArg (fun v : Vector SlotRec 16 => v[i]) (t.loseSlot_slots j)).trans (put_get_ne _ _ e)
          · rfl
        simp only [h, List.mem_cons, e, false_or]
  refine (key _ s (List.nodup_finRange 16)).trans ?_
  simp only [List.mem_finRange, true_and]

/-- A segment left enabled is left as its poll's end left it (R98). -/
theorem State.afterPoll_of_enabled {s : State} {g : Seg} (h : (s.seg g).cfg.enable = true) : s.afterPoll g = s := by
  unfold State.afterPoll
  rw [if_pos (.inl h)]

/-- A segment whose disable waits stops at its poll's end, and its ACTIVE slots go LOST (R98, R127). -/
theorem State.afterPoll_slots_of_disabled {s : State} {g : Seg} (h : (s.seg g).cfg.enable = false)
    (h' : (s.seg g).state ≠ .stopped) (i : Slot) :
    (s.afterPoll g).slots[i] =
      if s.slots[i].state = .active ∧ s.slots[i].lastSeg = some g then s.slots[i].gone else s.slots[i] := by
  unfold State.afterPoll State.stopSegment
  rw [if_neg (by rw [h]; exact fun c => c.elim (fun e => absurd e (by decide)) h'), State.loseSegment_slots]
  simp only [State.modSeg_slots]

/-! ### Feeding (R24, R137, R176) -/

theorem State.takeBlock_around (s : State) (p : Pos) (src : Source) (b : Block) :
    (s.takeBlock p src b).around = s.around := by
  unfold State.takeBlock
  dsimp only
  split <;> split <;> rfl

theorem remChanged_false {a b : Position} :
    remChanged a b = false ↔ b.presence = a.presence ∧ b.cls = a.cls ∧ b.buckle = a.buckle := by
  unfold remChanged
  rw [Bool.or_eq_false_iff, Bool.or_eq_false_iff, decide_eq_false_iff_not, decide_eq_false_iff_not,
    decide_eq_false_iff_not, Classical.not_not, Classical.not_not, Classical.not_not, and_assoc]
  exact ⟨fun ⟨x, y, z⟩ => ⟨x.symm, y.symm, z.symm⟩, fun ⟨x, y, z⟩ => ⟨x.symm, y.symm, z.symm⟩⟩

/-- A block at a position changes its record to `State.blockTaken` and no other record (R24). -/
theorem State.takeBlock_positions (s : State) (p : Pos) (src : Source) (b : Block) :
    (s.takeBlock p src b).positions = put s.positions p (s.blockTaken p src b) := by
  have hput : ∀ (r r' : Position), put (put s.positions p r) p r' = put s.positions p r' := by
    intro r r'
    simp [put]
  have h2 : ∀ (c : Prop) [Decidable c] (u : State), (if c then u.leaveWatch p else u).positions = u.positions := by
    intro c _ u; split <;> rfl
  unfold State.takeBlock State.blockTaken
  dsimp only
  rw [h2]
  generalize hn : s.positions[p].takeBlock s.poscfg[p] s.rules p src b = new
  have hself : (s.setPos p new).positions[p] = new := put_get_self _ _ _
  have hrem : new.rem = s.positions[p].rem := by
    rw [← hn]
    unfold Position.takeBlock
    split <;> first | rfl | skip
    all_goals
      unfold Position.classify Position.confirm
      dsimp only
      split
      · rfl
      · split <;> rfl
  by_cases hc : remChanged s.positions[p] new = true
  · rw [if_pos hc, if_neg (fun e => by rw [remChanged_false.mpr e] at hc; exact absurd hc (by decide))]
    unfold State.evalAt
    rw [State.setPos_remInputs, hself, hrem]
    show put (put s.positions p new) p _ = _
    rw [hput, hself]
    rfl
  · have hf := remChanged_false.mp (Bool.eq_false_iff.mpr hc)
    rw [if_neg hc, if_pos hf]
    show put s.positions p new = _
    congr 1
    unfold Position.reminded
    cases new
    simp only at hrem
    subst hrem
    simp

/-- A block takes its position out of the watch set exactly when its class changes to one that leaves it (R176). -/
theorem State.takeBlock_watchSet (s : State) (p : Pos) (src : Source) (b : Block) :
    (s.takeBlock p src b).pmg =
      if (s.blockTaken p src b).cls ≠ s.positions[p].cls ∧ (s.blockTaken p src b).cls.leavesWatch then
        { s.pmg with watchSet := s.pmg.watchSet.filter fun q => q ≠ p } else s.pmg := by
  have h1 : (s.blockTaken p src b).cls = (s.positions[p].takeBlock s.poscfg[p] s.rules p src b).cls := rfl
  rw [h1]
  unfold State.takeBlock
  dsimp only
  split <;> split <;> rfl

end Sys2Proof.Machine
end

