-- ==== Sys2Proof/Tests/Slice0.lean ====
section
/-! SUPPORT. Tests: what WellFormed refuses, the spec's worked examples, and for every obligation with hypotheses a state
and operands that meet them, clause by clause. -/

namespace Sys2Proof.Tests

open Sys2Proof.Machine

/-! ### WellFormed refuses -/

/-- A payload of 49 bytes. -/
def long : List Byte := List.replicate 49 0

/-- An entry of 47 bytes, 49 with its table id and index. -/
def longEntry : List Byte := List.replicate 47 0

theorem test_ill_formed_operands :
    Instr.wellFormed (.lengthAbandon 48) = false ∧ Instr.wellFormed (.lengthAbandon 49) = true ∧
      Instr.wellFormed (.unknownKind 0x01 0) = false ∧ Instr.wellFormed (.unknownKind 0x12 0) = false ∧
        Instr.wellFormed (.unknownKind 0x13 0) = true ∧ Instr.wellFormed (.frameSync 0xA4) = false ∧
          Instr.wellFormed (.frameSync 0xA5) = true ∧ Instr.wellFormed (.tblwrNode 0 long) = false ∧
            Instr.wellFormed (.tblwrNode 0 [2, 0]) = false ∧ Instr.wellFormed (.tblwrNode 0 [12, 0]) = false ∧
              Instr.wellFormed (.tblwrNode 0 [13, 0]) = true := by decide

theorem test_ill_formed_entries :
    ∀ c ∈ ([.tblwrSeatmap, .tblwrPoscfg, .tblwrRule, .tblwrProfile, .tblwrRingA, .tblwrRingB, .tblwrSegcfg,
        .tblwrLocalcfg, .tblwrTiming, .tblwrPanelcfg, .tblwrProtect] : List (Byte → Byte → List Byte → Instr)),
      (c 0 0 longEntry).wellFormed = false ∧ (c 0 0 (longEntry.drop 1)).wellFormed = true := by
  simp only [List.forall_mem_cons]
  decide

theorem test_ill_formed_payloads :
    (Instr.vehstat long).wellFormed = false ∧
      ∀ c ∈ ([.tblrd, .posqry, .nodereq, .stage, .commit, .nvcancel, .nverase, .protload, .callock, .sleepreq,
          .alertack, .chimetst, .paneltst, .clrflag, .identq, .softrst] : List (Byte → List Byte → Instr)),
        (c 0 long).wellFormed = false ∧ (c 0 (long.drop 1)).wellFormed = true := by
  simp only [List.forall_mem_cons]
  decide

/-! ### Frames (section 10.10) -/

/-- TBLRD of RULE 5 with tag 0x21: the check is 03 + 21 + 02 + 04 + 05 = 2F. -/
theorem test_frame_of_tblrd :
    trunkCommand [0xA5, 0x03, 0x21, 0x02, 0x04, 0x05, 0x00, 0x2F] = some (.tblrd 0x21 [0x04, 0x05]) := by decide

/-- SOFTRST with tag 9, and the same with its check off by one. -/
theorem test_frame_of_softrst :
    trunkCommand [0xA5, 0x12, 0x09, 0x00, 0x00, 0x1B] = some (.softrst 9 []) ∧
      trunkCommand [0xA5, 0x12, 0x09, 0x00, 0x00, 0x1C] = some .trunkCheckFail ∧
        trunkCommand [0xA5, 0x12, 0x09, 0x31, 0x00, 0x1C] = some (.lengthAbandon 0x31) ∧
          trunkCommand [0xA5, 0x13, 0x09, 0x00, 0x00, 0x1C] = some (.unknownKind 0x13 9) := by decide

/-- TBLWR of PROTECT: table id 12 picks the row. -/
theorem test_frame_of_tblwr :
    trunkCommand [0xA5, 0x02, 0x01, 0x03, 0x0C, 0x00, 0x05, 0x00, 0x17] = some (.tblwrProtect 1 0 [5]) := by decide

/-! ### States for the tests -/

/-- RUN with the ignition on, a frame in reception, the panel scanning, both segments STOPPED. -/
def run0 : State :=
  { State.reset with
    pmg := { Pmg.reset with power := .run, ignition := true, causes := Causes.empty }
    pnd := { Pnd.reset with scanning := true, copy := some PanelCfg.default, common := 0 }
    lsu := { Lsu.reset with timer := some 20 }
    tick := some 250
    tkp := { Tkp.reset with rx := .inFrame } }

/-- RUN with the ignition off and the run-down running. -/
def off0 : State := { run0 with pmg := { run0.pmg with ignition := false, runDown := some 10 } }

/-- A position fed by seat 0 of slot 6, LIVE. -/
def seated : Position :=
  { Position.reset with presence := .live, source := some (.seat 6 0), cls := .smallOccupant, owed := false }

/-- PARK_WATCH with positions 0 and 5 watched. -/
def park0 : State :=
  { off0 with
    pmg := { off0.pmg with power := .parkWatch, sub := some .watching, watchSet := [0, 5], runDown := none
                           elapsedTimer := true, interval := some 2, dwellTimer := true, locked := true }
    positions := put (put run0.positions 5 seated) 0 { seated with source := some .loc }
    seatmap := put run0.seatmap 0 { valid := true, slot := 6, seat := 0, pos := 5 }
    lsu := Lsu.reset
    tick := none }

/-- SLEEP. -/
def sleep0 : State :=
  { State.reset with
    pmg := { Pmg.reset with power := .sleep, causes := Causes.empty }, tkp := { Tkp.reset with rx := .off } }

/-- RUN with every place of the reply FIFO taken. -/
def full0 : State :=
  { run0 with tkp := { run0.tkp with replies := List.replicate 8 { tag := 0, kind := 2, status := .ok, body := [] } } }

/-- The ring of section 5.12. -/
def ring0 : Vector RingEntry 12 :=
  put (put (put (put Segment.reset.ring
    0 { valid := true, enabled := true, slot := 6, next := some 1 })
    1 { valid := true, enabled := false, slot := 7, next := some 2 })
    2 { valid := true, enabled := true, slot := 9, next := some 3 })
    3 { valid := true, enabled := true, slot := 6, next := none }

/-- A RUNNING segment over that ring. -/
def seg0 : Segment := { Segment.reset with ring := ring0, state := .running }

/-- RUN with that segment as B. -/
def ringing : State := { run0 with sgb := seg0 }

/-- A record for slot 6 in a state. -/
def rec6 (st : RecordState) : PassRecord := { tag := 3, slot := 6, body := [7], state := st }

/-- The poll of slot 6 at entry 0 with that record. -/
def poll6 : PollRec := { slot := 6, entry := 0, tag := some 3, window := 3 }

/-- A segment that waits for the reply of slot 6. -/
def seg6 : Segment :=
  { seg0 with poll := some poll6, window := some 3, pointer := 1, reception := .receiving, records := [rec6 .sent] }

/-- RUN with segment B waiting for the reply of slot 6. -/
def waiting : State := { run0 with sgb := seg6 }

/-- `waiting` with the record of slot 6. -/
def slot6 (st : SlotState) (miss lost : Nat) : State :=
  { waiting with
    slots := put waiting.slots 6
      { SlotRec.reset with state := st, serial := some 0x01020304, lastSeg := some .b, miss := miss, lost := lost
                           lastSeq := if st = .active ∨ st = .lost then some 4 else none }
    positions := put waiting.positions 5 seated }

/-- A REPORT of slot 6 with one seat block: serial 01020304, seq 5, cells 0 to 7 of 1 to 8, buckle OPEN, anchor A
ENGAGED, tag CHILD_FWD. -/
def reportFront (flags : Byte) : List Byte :=
  [0x86, 0x02, 0x13, 0x01, 0x02, 0x03, 0x04, 0x05, flags, 0x01, 0x00,
    0x00, 0x40, 0x20, 0x0C, 0x04, 0x01, 0x40, 0x60, 0x1C, 0x08, 0x68]

/-- The same with the check of its sum. -/
def reportBytes : List Byte := reportFront 0 ++ [0x02, 0x48]

/-- The REPORT those bytes spell by the layout of section 10.10. -/
def report6 : Report :=
  { slot := 6, serial := 0x01020304, seq := 5, flags := 0
    blocks := [{ cells := #v[1, 2, 3, 4, 5, 6, 7, 8], buckle := .opened, anchorA := true, anchorB := false
                 tag := .childFwd, supplyLow := false }]
    raw := [0x00, 0x40, 0x20, 0x0C, 0x04, 0x01, 0x40, 0x60, 0x1C, 0x08, 0x68], answer := [] }

theorem test_report_read : parseReport reportBytes = some report6 := by decide

/-- The same REPORT with the DETACH lever. -/
def leverBytes : List Byte := reportFront 1 ++ [0x02, 0x49]

theorem test_report_lever : parseReport leverBytes = some { report6 with flags := 1 } := by decide

/-- A POLL of slot 6 with the body 07: address 06, kind 01, length 01. -/
theorem test_poll_bytes : pollBytes 6 [7] = [0x06, 0x01, 0x01, 0x07, 0x00, 0x0F] := by decide

/-! ### Worked examples of the spec -/

/-- State.reset is the machine after a hard reset over an erased store (R171, R206). -/
theorem test_reset_is_boot : State.boot Store.erased [] 0 = State.reset := by decide

/-- POSCFG of section 2.8. -/
def cfg28 : PosCfg :=
  { PosCfg.default with
    offsets := #v[40, 40, 40, 40, 32, 32, 32, 32], gain := 80, tCell := 100, hyst := 150 }

/-- The block of section 2.8. -/
def block28 : Block :=
  { cells := #v[412, 530, 388, 0, 295, 610, 47, 150], buckle := .opened, anchorA := false, anchorB := false, tag := .none
    supplyLow := false }

/-- Rule 7 of section 2.8. -/
def rules28 : Rules :=
  put State.reset.rules 7
    { valid := true, positions := 0xFFFF, bands := 0b0100, fpMin := 3, fpMax := 8, buckles := 7, condA := .any
      condB := .any, tags := 1, pred := none, outcome := some .smallOccupant, window := 1 }

/-- The record of section 2.8 before the first report. -/
def start28 : Position := { seated with load := 1900, band := .small, buckle := .opened, owed := false }

/-- The position after `n` of the same blocks. -/
def blocks (n : Nat) (cfg : PosCfg) (rules : Rules) (p : Pos) (b : Block) (r : Position) : Position :=
  n.repeat (fun x => x.takeBlock cfg rules p (.seat 6 0) b) r

/-- Section 2.8: L 2730, footprint 6, and the record after reports 2, 3 and 5. -/
theorem test_passenger_settles :
    loadOf cfg28 block28.cells = 2730 ∧ footprintOf cfg28 block28.cells = 6 ∧
      (let r := blocks 2 cfg28 rules28 5 block28 start28; r.load = 2522 ∧ r.band = .small ∧ r.pending = none) ∧
        (let r := blocks 3 cfg28 rules28 5 block28 start28;
          r.load = 2626 ∧ r.band = .large ∧ r.pending = some { cls := .adult, count := 1 }) ∧
          (let r := blocks 5 cfg28 rules28 5 block28 start28;
            r.load = 2704 ∧ r.cls = .adult ∧ r.pending = none ∧ r.owed = true) := by decide

/-- Section 2.9: the seat is emptied. -/
theorem test_seat_emptied :
    let r := blocks 3 cfg28 rules28 5 block28 start28
    let empty := { block28 with cells := Vector.replicate 8 0 }
    (let q := blocks 2 cfg28 rules28 5 empty r;
      q.load = 656 ∧ q.band = .light ∧ q.pending = some { cls := .object, count := 1 }) ∧
      (let q := blocks 7 cfg28 rules28 5 empty r;
        q.load = 20 ∧ q.band = .empty ∧ q.pending = some { cls := .vacant, count := 3 }) ∧
        (let q := blocks 12 cfg28 rules28 5 empty r; q.load = 0 ∧ q.cls = .vacant) := by decide

/-- Section 2.10: the buckle after the second and the fourth block. -/
theorem test_buckle_chatters :
    let b := fun x : Buckle => { block28 with buckle := x }
    let t := fun (x : Block) (r : Position) => r.takeBlock cfg28 rules28 3 (.seat 6 0) x
    let two := t (b .fault) (t (b .latched) start28)
    two.buckle = .opened ∧ two.candidate = some .fault ∧
      (let four := t { b .latched with supplyLow := true } (t (b .latched) two);
        four.buckle = .latched ∧ four.candidate = none ∧ four.presence = .held ∧ four.load = 2626) := by decide

/-- Rules 3, 4 and 5 of section 3.5: an ARM rule and two that need it. -/
def rules35 : Rules :=
  let e : RuleEntry :=
    { valid := true, positions := 0xFFFE, bands := 0b0011, fpMin := 0, fpMax := 8, buckles := 7, condA := .engaged
      condB := .engaged, tags := 15, pred := none, outcome := none, window := 10 }
  put (put (put State.reset.rules 3 e)
    4 { e with pred := some 3, outcome := some .childSeatEmpty, window := 1 })
    5 { e with pred := some 3, bands := 0b1100, outcome := some .childSeatOccupied, window := 1 }

/-- Section 3.8, writes 1 to 3 and 8: chains of 3, 4 and 5 rules, and an entry that names itself. -/
theorem test_chains :
    let arm := fun p : RuleIx => ({ rules35[(3 : RuleIx)] with pred := some p } : RuleEntry)
    let one := put rules35 9 (arm 5)
    let two := put one 12 (arm 9)
    chainTooLong rules35 9 (arm 5) = false ∧ chainTooLong one 12 (arm 9) = false ∧
      chainTooLong two 15 (arm 12) = true ∧ chainTooLong two 3 (arm 1) = true ∧
        parseRule 10 [1, 0, 1, 1, 0, 8, 7, 0, 0, 1, 10, 0, 1] = .error .chain := by decide

/-- The block of section 3.5: a latched infant restraint with L 700. -/
def block35 : Block :=
  { cells := #v[88, 88, 88, 88, 87, 87, 87, 87], buckle := .opened, anchorA := true, anchorB := true
    tag := .infantRear, supplyLow := false }

/-- Sections 3.5 and 3.6: the restraint arms rule 3 and after it rule 4 matches; a child brings rule 5; taken out, rule 3
counts down from the next block. -/
theorem test_restraint :
    let t := blocks 1 PosCfg.default rules35 10
    let one := t block35 { seated with cls := .vacant }
    let four := blocks 3 PosCfg.default rules35 10 block35 one
    let child := { block35 with cells := #v[263, 263, 263, 263, 262, 262, 262, 262] }
    let seven := blocks 3 PosCfg.default rules35 10 child four
    let out := { block35 with cells := Vector.replicate 8 0, anchorA := false, anchorB := false, tag := .none }
    let eight := t out seven
    one.load = 350 ∧ one.armed[(3 : RuleIx)] = 10 ∧ one.pending = some { cls := .object, count := 1 } ∧
      four.load = 656 ∧ four.cls = .childSeatEmpty ∧ seven.load = 1919 ∧ seven.cls = .childSeatOccupied ∧
        seven.armed[(3 : RuleIx)] = 10 ∧ eight.load = 959 ∧ eight.armed[(3 : RuleIx)] = 9 ∧
          (blocks 7 PosCfg.default rules35 10 out eight).cls = .vacant := by decide

/-- Section 4.8: the supply state by the counts 512, 421, 398, 440, 447, 450. -/
theorem test_supply_sag :
    let s := supplyAfter LocalCfg.default
    s false 512 = false ∧ s false 421 = true ∧ s true 398 = true ∧ s true 440 = true ∧ s true 447 = false ∧
      s false 450 = false := by decide

/-- What a poll start on segment B gives: the slot polled and the pointer. -/
def polls (s : State) : Option (Option Slot × RingIx × SegState) :=
  match exec (.pollStart .b) s with
  | .next t => some (t.sgb.poll.map (·.slot), t.sgb.pointer, t.sgb.state)
  | _ => none

/-- Section 5.12: the walk polls 6, 9, 6 and leaves the pointer at 1, 3, 0; with all entries disabled twelve skips from
1 put the segment into IDLE with the pointer at 1. -/
theorem test_ring_walk :
    polls ringing = some (some 6, 1, .running) ∧
      polls { ringing with sgb := { seg0 with pointer := 1 } } = some (some 9, 3, .running) ∧
        polls { ringing with sgb := { seg0 with pointer := 3 } } = some (some 6, 0, .running) ∧
          polls { ringing with sgb := { seg0 with
            pointer := 1, ring := Vector.ofFn fun i => { ring0[i] with enabled := false } } } =
            some (none, 1, .idle) := by decide

/-- The inputs of position 3 of section 7.11. -/
def in711 (ignition moving : Bool) (b : Buckle) : RemInputs :=
  { State.reset.remInputs 3 with
    ignition := ignition, moving := moving, presence := .live, cls := .adult, buckle := b }

/-- A reminder in a state with its counter. -/
def at711 (st : RemState) (n : Nat) : Reminder := { state := st, phase := none, ticks := n, bursts := 0 }

/-- Section 7.11, event by event: ignition on, tick 8, tick 28, moving, LATCHED, OPEN while moving. -/
theorem test_journey :
    let now := fun (m : Bool) (b : Buckle) (r : Reminder) => (evaluate (in711 true m b) r).1
    let tick := fun r : Reminder => (tickReminder (in711 true false .opened) r).1
    let sounding := { at711 .audible 4 with phase := some .on }
    now false .opened Reminder.reset = at711 .grace 8 ∧ tick (at711 .grace 1) = at711 .visual 20 ∧
      tick (at711 .visual 1) = at711 .visual 0 ∧ now true .opened (at711 .visual 0) = sounding ∧
        now true .latched sounding = at711 .belted 0 ∧ now true .opened (at711 .belted 0) = at711 .visual 20 := by
  decide

/-- Section 8.11 from 0 to 1400 and from 2000 to 3000: the tone on CHIME. -/
theorem test_chime :
    let nine := Chd.reset.raisePos 9 1
    let four := nine.raisePos 4 2
    let test := { four with test := some 0, grant := .test }
    nine.output = some 1 ∧ four.grant = .pos 9 ∧ test.output = some 0 ∧ (test.withdrawPos 9).grant = .test ∧
      (four.withdrawPos 9).output = some 2 ∧ ((four.withdrawPos 9).withdrawPos 4).output = none := by decide

/-- Section 8.11, column CHIME at 0, 400, 900, 1150, 3000 and 3250. -/
theorem test_chime_frequency :
    let nine := Chd.reset.raisePos 9 1
    let four := nine.raisePos 4 2
    let test := fun q => { four with test := some q, grant := .test }
    nine.frequency = some 1300 ∧ (test 0).frequency = some 650 ∧ (test 2).frequency = some 2100 ∧
      (test 3).frequency = some 2900 ∧ (four.withdrawPos 9).frequency = some 2100 ∧
        ((four.withdrawPos 9).withdrawPos 4).frequency = none := by decide

/-- R168 lists the ignition as on, off, so its byte in the PMG status (R187) is 0 for on and 1 for off. -/
theorem test_ignition_byte :
    let bytes := fun on : Bool => ({ Pmg.reset with power := .run, ignition := on }).statusBytes 0
    (bytes true).take 5 = [1, 0xFF, 0, 0, 0] ∧ (bytes false).take 5 = [1, 0xFF, 1, 0, 0] := by decide

/-- The panel of section 8.12. -/
def panel812 (ph : FlashPhase) : Pnd :=
  { Pnd.reset with
    flash := ph
    image := put (put (put (put Pnd.reset.image 5 .warn) 2 .fault) 0 .belted) 14 .belted }

/-- Section 8.12: the lines driven on commons 0, 1, 2 and 7 in the two phases. -/
theorem test_panel :
    let cfg : PanelCfg := { enable := true, layout := .eightByFour, fitted := 0x3FFF, duty := 6 }
    let lines := fun ph => [0, 1, 2, 7].map ((panel812 ph).slotLines cfg)
    lines .a = [1, 1, 8, 0] ∧ lines .b = [1, 2, 0, 0] := by decide

/-! ### Witnesses: the hypotheses of the obligations are met -/

/-- RUN or PARK_WATCH with nothing waiting, and a frame that reaches its owner. -/
abbrev ready (s : State) : Prop := s.takes ∧ s.settled

/-- RUN with the store in an operation state, an entry staged and a place reserved. -/
def storing (op : OpState) : State :=
  { run0 with
    cfs := { run0.cfs with op := op, staging := some (.protect 5) }
    tkp := { run0.tkp with reserved := some { tag := 9, kind := 7 } } }

/-- RUN with every region protected. -/
def sealed : State := { run0 with cfs := { run0.cfs with effective := 0xF } }

/-- RUN with the calibration lock set. -/
def lockedState : State :=
  { run0 with cfs := { run0.cfs with
    store := { Store.erased with lock := true }, effective := 2, staging := some (.protect 5) } }

/-- Position 5 in its first ON phase. -/
def sounding0 : State :=
  { run0 with
    positions := put run0.positions 5 { seated with rem := { state := .audible, phase := some .on, ticks := 4, bursts := 0 } }
    chd := { Chd.reset with requests := put Chd.reset.requests 5 (some 1), grant := .pos 5 }
    pnd := { run0.pnd with image := put run0.pnd.image 5 .warn } }

theorem witness_StepRunsFrontCommand :
    ({ run0 with pending := [.reminderTick] } : State).pending = .reminderTick :: [] := by decide

theorem witness_HardResetLoads :
    run0.cfs.op = .idle ∧ (storing (.running .commit)).cfs.staging = some (.protect 5) ∧
      (storing (.running .commit)).cfs.op = .running .commit ∧
        (storing (.suspended .commit)).cfs.op = .suspended .commit ∧
          (storing (.running (.erase 3))).cfs.op = .running (.erase 3) ∧
            (storing (.suspended (.erase 0))).cfs.op = .suspended (.erase 0) ∧
              (storing (.running .lock)).cfs.op = .running .lock ∧
                (storing (.suspended .lock)).cfs.op = .suspended .lock := by decide

/-- A store with one NODE, one SEATMAP and one RULE record, each at the last index. -/
def stored0 : State :=
  { run0 with cfs := { run0.cfs with store := { Store.erased with
    node := put Store.erased.node 15 (some { valid := true, serial := 9, seatCount := 3, mirror := false })
    seatmap := put Store.erased.seatmap 23 (some { valid := true, slot := 15, seat := 2, pos := 15 })
    rule := put Store.erased.rule 23 (some rules28[(7 : RuleIx)]) } } }

theorem witness_HardResetLoadKeepsLaws :
    stored0.cfs.op = .idle ∧ (∀ i : RuleIx, ∀ e ∈ stored0.cfs.store.rule[i], e.canonical) ∧
      (∃ e, stored0.cfs.store.node[(15 : Fin 16)] = some e ∧ e.valid = true) ∧
        (∀ j : Fin 16, j < 15 → stored0.cfs.store.node[j] = none) ∧
          (∃ e, stored0.cfs.store.seatmap[(23 : Fin 24)] = some e ∧ e.valid = true) ∧
            (∀ j : Fin 24, j < 23 → stored0.cfs.store.seatmap[j] = none) ∧
              (∃ e, stored0.cfs.store.rule[(23 : RuleIx)] = some e ∧ e.pred = none) ∧
                ∀ j : RuleIx, j < 23 → stored0.cfs.store.rule[j] = none :=
  ⟨by decide, by decide, ⟨_, rfl, rfl⟩, by decide, ⟨_, rfl, rfl⟩, by decide, ⟨_, rfl, rfl⟩, by decide⟩

theorem witness_LoadCompleteEntersRun : State.reset.pmg.power = .starting ∧ State.reset.resting := by decide

theorem witness_IgnitionChanges :
    (sounding0.pmg.power = .run ∧ sounding0.pmg.ignition = true ∧ sounding0.panelWhole ∧ sounding0.toChime = [] ∧
      ∀ p : Pos, sounding0.chd.requests[p].isSome = sounding0.positions[p].rem.sounding) ∧
      (off0.pmg.ignition = false ∧ off0.toChime = [] ∧ off0.pmg.power = .run) ∧
        (park0.pmg.ignition = false ∧ park0.toChime = [] ∧ park0.pmg.power = .parkWatch ∧
          park0.pnd.scanning = true ∧ park0.lsu.remaining = []) ∧
          (let s := { park0 with lsu := { park0.lsu with remaining := [.vhalf] } };
            s.pmg.ignition = false ∧ s.toChime = [] ∧ s.pmg.power = .parkWatch ∧ s.pnd.scanning = true ∧
              s.lsu.remaining ≠ []) ∧
            (sleep0.pmg.ignition = false ∧ sleep0.toChime = [] ∧ sleep0.pmg.power = .sleep ∧ sleep0.resting) ∧
              (State.reset.toChime = [] ∧ State.reset.pmg.power = .starting) ∧
                run0.toChime = [] ∧ true = run0.pmg.ignition := by decide

theorem witness_DoorAndWakes :
    let shut := fun s : State => true ≠ s.pmg.doorOpen
    let wakes := fun d k b => { sleep0 with pmg := { sleep0.pmg with timing := { Timing.default with
      wakeTrunk := k, wakeDoor := d, wakeBuckle := b } } }
    (shut run0 ∧ run0.pmg.power = .run) ∧ (shut park0 ∧ park0.pmg.power = .parkWatch) ∧
      (shut (wakes false true true) ∧ (wakes false true true).pmg.power = .sleep ∧
        (true && (wakes false true true).pmg.timing.wakeDoor) = false) ∧
        (shut State.reset ∧ State.reset.pmg.power = .starting) ∧
          (sleep0.pmg.power = .sleep ∧ sleep0.resting ∧ sleep0.pmg.timing.wakeTrunk = true ∧
            sleep0.pmg.timing.wakeDoor = true ∧ sleep0.pmg.doorOpen = false ∧ sleep0.pmg.timing.wakeBuckle = false) ∧
            (wakes true false true).pmg.timing.wakeTrunk = false ∧
              (wakes true false true).pmg.timing.wakeBuckle = true ∧
                (wakes true false true).lsu.cfg.fitted 1 = true := by decide

theorem witness_RundownExpiry :
    off0.pmg.power = .run ∧ off0.pmg.runDown.isSome ∧
      (let s := { off0 with positions := put off0.positions 15 seated };
        s.pmg.power = .run ∧ s.pmg.runDown.isSome ∧ s.positions[(15 : Pos)].presence = .live ∧
          s.positions[(15 : Pos)].cls = .smallOccupant ∧ s.poscfg[(15 : Pos)].watchEligible = true) := by decide

theorem witness_ReceiverEvents :
    State.reset.tkp.rx = .hunt ∧ (0xA4 : Byte) ≠ 0xA5 ∧ run0.tkp.rx = .inFrame ∧ 48 < (49 : Byte).toNat ∧
      ({ run0 with tkp := { run0.tkp with rx := .waitIdle } } : State).tkp.rx = .waitIdle := by decide

theorem witness_FrameTests :
    let early := { State.reset with tkp := { Tkp.reset with rx := .inFrame } }
    (replyFrame (.posqry 7 [3]) = some (0x04, 7) ∧ full0.tkp.rx = .inFrame ∧ full0.settled ∧
      8 ≤ full0.tkp.placesTaken) ∧
      (early.tkp.rx = .inFrame ∧ early.settled ∧ early.tkp.placesTaken < 8 ∧ early.pmg.power = .starting ∧
        (0x04 : Byte) ≠ 0x11) ∧
        (replyFrame (.identq 7 [0]) = some (0x11, 7) ∧ lengthFits (.identq 7 [0]) = false) ∧
          (run0.tkp.rx = .inFrame ∧ run0.settled ∧ run0.tkp.placesTaken < 8 ∧ run0.pmg.power ≠ .starting ∧
            lengthFits (.posqry 7 []) = false) ∧ 0x12 < (0x13 : Byte).toNat := by decide

theorem witness_VehicleRecord :
    (run0.tkp.rx = .inFrame ∧ run0.pmg.power ≠ .starting ∧ run0.settled ∧ ([1, 0] : List Byte).length ≠ 1) ∧
      (park0.tkp.rx = .inFrame ∧ park0.pmg.power ≠ .starting ∧ park0.settled ∧
        (0 : Byte).getLsbD 1 ≠ park0.pmg.locked) ∧
        (let early := { State.reset with tkp := { Tkp.reset with rx := .inFrame } };
          early.tkp.rx = .inFrame ∧ early.pmg.power = .starting) := by decide

theorem witness_TableWriteRefusals :
    ready run0 ∧ TableId.rule.count ≤ (24 : Byte).toNat ∧ (23 : Byte).toNat < TableId.rule.count ∧
      (List.replicate 12 (0 : Byte)).length ≠ TableId.rule.entrySize ∧
        (ready sealed ∧ (23 : Byte).toNat < TableId.rule.count ∧
          (List.replicate 13 (0 : Byte)).length = TableId.rule.entrySize ∧ sealed.cfs.protects .rule = true) ∧
          12 < (13 : Byte).toNat := by decide

/-- RUN with a NODE entry at 3 of serial 01020304, SEATMAP entry 0 naming position 5, and that position LIVE. -/
def listed : State :=
  { run0 with
    node := put run0.node 3 { valid := true, serial := 0x01020304, seatCount := 1, mirror := true }
    seatmap := put run0.seatmap 0 { valid := true, slot := 6, seat := 0, pos := 5 }
    positions := put run0.positions 5 seated }

theorem witness_NodeWrite :
    ready listed ∧ listed.cfs.protects .node = false ∧ (1 : Byte) ≠ 0 ∧
      ((0 * 256 + 0) * 256 + 0) * 256 + 0 = 0 ∧
        (∃ j : Fin 16, j ≠ 15 ∧ listed.node[j].valid = true ∧
          listed.node[j].serial = BitVec.ofNat 32 (((1 * 256 + 2) * 256 + 3) * 256 + 4)) ∧
          ¬∃ j : Fin 16, j ≠ 15 ∧ listed.node[j].valid = true ∧ listed.node[j].serial = BitVec.ofNat 32 5 := by decide

theorem witness_SeatMapWrite :
    ready listed ∧ listed.cfs.protects .seatmap = false ∧ 15 < (16 : Byte).toNat ∧ 2 < (3 : Byte).toNat ∧
      (1 : Byte).toNat < 2 ∧
        (∃ j : Fin 24, j ≠ 23 ∧ listed.seatmap[j].valid = true ∧
          ((listed.seatmap[j].slot = 6 ∧ listed.seatmap[j].seat = 0) ∨ listed.seatmap[j].pos = 15)) ∧
          (¬∃ j : Fin 24, j ≠ 23 ∧ listed.seatmap[j].valid = true ∧
            ((listed.seatmap[j].slot = 15 ∧ listed.seatmap[j].seat = 2) ∨ listed.seatmap[j].pos = 2)) ∧
            listed.seatmap[(23 : Fin 24)].valid = false ∧ listed.seatmap[(0 : Fin 24)].valid = true ∧
              listed.positions[listed.seatmap[(0 : Fin 24)].pos].presence ≠ .noSeat ∧
                listed.pmg.power ≠ .parkWatch := by decide

/-- The bytes of a POSCFG entry with the defaults but for its thresholds. -/
def posEntry (tCell tObj tSmall : Nat) : List Byte :=
  List.replicate 8 0 ++ [64] ++ beBytes 2 tCell ++ beBytes 2 tObj ++ beBytes 2 tSmall ++ beBytes 2 2600 ++
    beBytes 2 100 ++ [1, 3, 5, 0, 1]

theorem witness_PosCfgWrite :
    let fine := fun bs => u16 bs 9 ≤ 1023 ∧ (1 ≤ u16 bs 11 ∧ u16 bs 11 ≤ 16240) ∧
      (1 ≤ u16 bs 13 ∧ u16 bs 13 ≤ 16240) ∧ (1 ≤ u16 bs 15 ∧ u16 bs 15 ≤ 16240) ∧ u16 bs 17 ≤ 1023 ∧
        u8 bs 19 ≤ 3 ∧ u8 bs 22 ≤ 3
    let rises := fun bs => u16 bs 11 < u16 bs 13 ∧ u16 bs 13 < u16 bs 15 ∧ u16 bs 17 < u16 bs 11
    ready listed ∧ listed.cfs.protects .poscfg = false ∧ (posEntry 0 101 102).length = 24 ∧
      ¬fine (posEntry 1024 101 102) ∧ ¬fine (posEntry 0 16241 102) ∧ fine (posEntry 1023 101 101) ∧
        ¬rises (posEntry 1023 101 101) ∧ ¬rises (posEntry 1023 100 101) ∧ fine (posEntry 1023 101 102) ∧
          rises (posEntry 1023 101 102) := by decide

theorem witness_RuleWrite :
    let arm := fun p : RuleIx => ({ rules35[(3 : RuleIx)] with pred := some p } : RuleEntry)
    let s := { run0 with rules := put (put rules35 9 (arm 5)) 12 (arm 9) }
    let bs := fun bands lo hi pred out : Byte => [1, 0, 2, bands, lo, hi, 7, 0, 0, 15, pred, out, 10]
    let long := fun (i : RuleIx) (e : RuleEntry) => ∃ j : RuleIx, (put s.rules i e)[j].valid = true ∧
      i ∈ chainOf (put s.rules i e) 24 j ∧ 4 < (chainOf (put s.rules i e) 24 j).length
    ready s ∧ s.cfs.protects .rule = false ∧ (bs 1 0 8 12 7).length = 13 ∧ u8 (bs 16 0 8 12 7) 3 % 16 = 0 ∧
      8 < u8 (bs 1 0 9 12 7) 5 ∧ 7 < u8 (bs 1 0 8 12 8) 11 ∧ u8 (bs 1 8 7 12 7) 5 < u8 (bs 1 8 7 12 7) 4 ∧
        (15 : RuleIx).val ≤ u8 (bs 1 0 8 15 7) 10 ∧ u8 (bs 1 0 8 14 7) 10 < (15 : RuleIx).val ∧
          long 15 (arm 12) ∧ ¬long 15 (arm 9) := by decide

theorem witness_ProfileWrite :
    ready listed ∧ listed.cfs.protects .profile = false ∧ 15 < (16 : Byte).toNat ∧ 3 < (4 : Byte).toNat ∧
      (1 : Byte) ≠ 0 ∧ (15 : Byte).toNat ≤ 15 ∧ (3 : Byte).toNat ≤ 3 ∧ listed.poscfg[(5 : Pos)].profile = 0 ∧
        listed.poscfg[(5 : Pos)].profile ≠ 3 := by decide

theorem witness_RingWrite :
    ready ringing ∧ ringing.cfs.protects .ringA = false ∧ (1 : Byte) ≠ 0 ∧ 15 < (16 : Byte).toNat ∧
      (15 : Byte).toNat ≤ 15 := by decide

/-- `slot6` with no poll outstanding. -/
def quiet6 (st : SlotState) : State := { slot6 st 0 0 with sgb := seg0 }

theorem witness_SegCfgWrite :
    ready waiting ∧ waiting.cfs.protects .segcfg = false ∧ (1 : Byte) ≠ 0 ∧
      ((waiting.seg .b).poll.isSome ∧ (waiting.seg .b).state = .running) ∧
        (let s := quiet6 .active;
          ready s ∧ s.cfs.protects .segcfg = false ∧ (s.seg .b).poll = none ∧ (s.seg .b).state ≠ .stopped ∧
            s.slots[(6 : Slot)].state = .active ∧ s.slots[(6 : Slot)].lastSeg = some .b ∧
              s.positions[(5 : Pos)].losable 6 = true ∧ s.positions[(4 : Pos)].losable 6 = false) := by decide

theorem witness_LocalCfgWrite :
    let s := { run0 with positions := put run0.positions 1 { seated with source := some .loc } }
    ready s ∧ s.cfs.protects .localcfg = false ∧ 1023 < within 1 1023 (3 * 256 + 255) + within 0 63 1 ∧
      within 1 1023 (3 * 256 + 192) + within 0 63 64 ≤ 1023 ∧ s.pmg.power ≠ .parkWatch ∧
        s.positions[(1 : Pos)].presence ≠ .noSeat ∧ s.positions[(0 : Pos)].presence = .noSeat := by decide

theorem witness_PlainTableWrites :
    run0.takes ∧ run0.cfs.protects .timing = false ∧ run0.cfs.protects .panelcfg = false ∧ 1 < (2 : Byte).toNat ∧
      (1 : Byte).toNat ≤ 1 := by decide

theorem witness_ReadsAnswered :
    run0.takes ∧ 12 < (13 : Byte).toNat ∧ TableId.rule.count ≤ (24 : Byte).toNat ∧ 15 < (16 : Byte).toNat ∧
      run0.pmg.runDown = none ∧ off0.takes ∧ off0.pmg.runDown = some 10 := by decide

/-- `slot6` ACTIVE with segment B in a state and that many records for slot 6 QUEUED. -/
def asked (n : Nat) (st : SegState) : State :=
  { slot6 .active 0 0 with sgb := { seg0 with state := st, records := List.replicate n (rec6 .queued) } }

theorem witness_NodeRequest :
    1 ≤ ([7] : List Byte).length ∧ (List.replicate 8 (7 : Byte)).length ≤ 8 ∧ 15 < (16 : Byte).toNat ∧
      (waiting.takes ∧ waiting.slots[(6 : Slot)].state ≠ .active) ∧
        (∀ s ∈ [asked 3 .running, asked 2 .stopped, asked 2 .fault, asked 2 .idle, asked 2 .running],
          s.takes ∧ s.slots[(6 : Slot)].state = .active ∧ s.slots[(6 : Slot)].lastSeg = some .b) ∧
          3 ≤ ((asked 3 .running).seg .b).records.length ∧ ((asked 2 .stopped).seg .b).records.length < 3 ∧
            ((asked 2 .stopped).seg .b).state = .stopped ∧ ((asked 2 .fault).seg .b).state = .fault ∧
              ((asked 2 .idle).seg .b).state = .idle ∧ (6 : Slot) ∈ ((asked 2 .running).seg .b).walkSlots ∧
                (6 : Slot) ∉ ({ (asked 2 .running).sgb with ring := Segment.reset.ring }).walkSlots := by decide


theorem witness_StageAndCommit :
    run0.takes ∧ 12 < (13 : Byte).toNat ∧ TableId.rule.count ≤ (24 : Byte).toNat ∧
      (23 : Byte).toNat < TableId.rule.count ∧ run0.cfs.op = .idle ∧ run0.cfs.staging = none ∧
        ((storing (.running .lock)).takes ∧ (storing (.running .lock)).cfs.op ≠ .idle) ∧
          (let s := { sealed with cfs := { sealed.cfs with staging := some (.timing Timing.default) } };
            s.takes ∧ s.cfs.op = .idle ∧ s.cfs.staging = some (.timing Timing.default) ∧
              s.cfs.protects (Staged.timing Timing.default).table = true) ∧
            (lockedState.takes ∧ lockedState.cfs.op = .idle ∧ lockedState.cfs.staging = some (.protect 5) ∧
              lockedState.cfs.store.lock = true) ∧
              ((storing .idle).takes ∧ (storing .idle).cfs.op = .idle ∧
                (storing .idle).cfs.protects (Staged.protect 5).table = false ∧
                  (storing .idle).cfs.store.lock = false) := by decide

theorem witness_CancelCommit :
    (storing (.running .commit)).takes ∧ run0.takes ∧ run0.cfs.op = .idle ∧
      (storing (.running .commit)).cfs.op = .running .commit ∧
        (storing (.running .commit)).cfs.staging = some (.protect 5) ∧
          (storing (.running .commit)).tkp.reserved = some { tag := 9, kind := 7 } ∧
            (storing (.running (.erase 3))).takes ∧ (storing (.running (.erase 3))).cfs.op = .running (.erase 3) ∧
              (storing (.running .lock)).cfs.op = .running .lock := by decide

theorem witness_EraseAndProtection :
    3 < (4 : Byte).toNat ∧ (lockedState.takes ∧ lockedState.cfs.store.lock = true) ∧
      (sealed.takes ∧ sealed.cfs.store.lock = false ∧ sealed.cfs.effective.getLsbD 3 = true) ∧
        ((storing (.running .commit)).takes ∧ (storing (.running .commit)).cfs.store.lock = false ∧
          (storing (.running .commit)).cfs.effective.getLsbD 3 = false ∧
            (storing (.running .commit)).cfs.op ≠ .idle) ∧
          (run0.takes ∧ run0.cfs.store.lock = false ∧ run0.cfs.effective.getLsbD 0 = false ∧
            run0.cfs.op = .idle) := by decide

theorem witness_StoreCompletions :
    (storing (.running .commit)).tkp.reserved = some { tag := 9, kind := 7 } ∧
      (storing (.running .commit)).cfs.op = .running .commit ∧
        (storing (.running .commit)).cfs.staging = some (.protect 5) ∧
          (storing (.running (.erase 3))).cfs.op = .running (.erase 3) ∧
            (storing (.running .lock)).cfs.op = .running .lock := by decide

theorem witness_RequestsToBlocks :
    let sub := fun x : WatchSub => { park0 with
      pmg := { park0.pmg with sub := some x }
      chd := if x = WatchSub.alerting then { Chd.reset with alert := some .tone3, grant := .alert } else Chd.reset }
    (off0.takes ∧ off0.pmg.power = .run ∧ off0.pmg.ignition = false) ∧ (run0.takes ∧ run0.pmg.ignition = true) ∧
      ((sub .alerting).takes ∧ (sub .alerting).pmg.sub = some .alerting ∧ (sub .alerting).chd.whole) ∧
        ((sub .silenced).takes ∧ (sub .silenced).pmg.sub = some .silenced) ∧
          ((sub .watching).takes ∧ (sub .watching).pmg.sub = some .watching) ∧ run0.pmg.sub = none ∧
            run0.chd.test = none ∧
              (let s := { run0 with chd := { Chd.reset with test := some 3, grant := .test } };
                s.takes ∧ s.chd.test.isSome) := by decide

theorem witness_FlagsAndIdentity :
    run0.takes ∧ 4 < (5 : Byte).toNat ∧
      (let s := { State.reset with tkp := { Tkp.reset with
          rx := .inFrame, replies := List.replicate 7 { tag := 0, kind := 2, status := .ok, body := [] } } };
        s.tkp.rx = .inFrame ∧ s.tkp.placesTaken < 8 ∧ s.pmg.power = .starting) := by decide

/-- RUN with something of every kind to send but an ALERT. -/
def owing : State :=
  { run0 with
    tkp := { run0.tkp with
      replies := [{ tag := 1, kind := 2, status := .ok, body := [] }]
      mirror := [{ slot := 6, seg := .b, serial := 1, seq := 0, flags := 0, count := 0, raw := [] }] }
    sgb := { seg0 with records := [rec6 (.answered .ok [9] 0)] }
    slots := put run0.slots 15 { SlotRec.reset with owed := true }
    positions := put (Vector.replicate 16 { Position.reset with owed := false }) 15 Position.reset
    pmg := { run0.pmg with wakenoteOwed := true } }

/-- `owing` with its first `n` kinds sent, in the order of R201: REPLY, NODEANS, WAKENOTE, POSNOTE, SEATNOTE. -/
def after (n : Nat) : State :=
  { owing with
    tkp := { owing.tkp with replies := if n < 1 then owing.tkp.replies else [] }
    sgb := if n < 2 then owing.sgb else seg0
    pmg := { owing.pmg with wakenoteOwed := n < 3 }
    positions := if n < 4 then owing.positions else Vector.replicate 16 { Position.reset with owed := false }
    slots := if n < 5 then owing.slots else run0.slots }

theorem witness_SendsInOrder :
    let alert := { owing with pmg := { owing.pmg with alertOwed := true } }
    let r : Reply := { tag := 1, kind := 2, status := .ok, body := [] }
    let quietPos := fun s : State => ∀ q : Pos, s.positions[q].owed = false
    (alert.tkp.tx = none ∧ alert.pmg.power = .run ∧ alert.pmg.alertOwed = true) ∧
      (owing.tkp.tx = none ∧ owing.pmg.power = .run ∧ owing.pmg.alertOwed = false ∧ owing.tkp.replies = [r]) ∧
        ((after 1).tkp.replies = [] ∧ ((after 1).seg .b).offer = some (rec6 (.answered .ok [9] 0)) ∧
          (after 1).sga.offer = none) ∧
          ((after 2).tkp.replies = [] ∧ (after 2).sga.offer = none ∧ (after 2).sgb.offer = none ∧
            (after 2).pmg.wakenoteOwed = true) ∧
            ((after 3).pmg.wakenoteOwed = false ∧ (after 3).positions[(15 : Pos)].owed = true ∧
              ∀ q : Pos, q < 15 → (after 3).positions[q].owed = false) ∧
              (quietPos (after 4) ∧ (after 4).slots[(15 : Slot)].owed = true ∧
                ∀ j : Slot, j < 15 → (after 4).slots[j].owed = false) ∧
                (quietPos (after 5) ∧ (∀ j : Slot, (after 5).slots[j].owed = false) ∧ (after 5).tkp.mirror ≠ []) ∧
                  (sleep0.pmg.power = .sleep ∧ State.reset.pmg.power = .starting ∧
                    (let s := { State.reset with tkp := owing.tkp };
                      s.tkp.tx = none ∧ s.pmg.power = .starting ∧ s.tkp.replies = [r])) := by decide

/-- A frame being sent. -/
def outFrame : OutFrame := { kind := 0x81, tag := 1, payload := [] }

/-- A state that sends a frame with a completion. -/
def sending0 (s : State) (a : SendAction) : State :=
  { s with tkp := { s.tkp with tx := some { frame := outFrame, action := a } } }

theorem witness_SendCompletes :
    let asleep := sending0 { off0 with pmg := { off0.pmg with sleepReq := true } } (.reply 0x0C .ok)
    let answer := sending0 { run0 with sgb := { seg0 with
      records := [rec6 .queued, rec6 (.answered .ok [9] 0)] } } (.record .b)
    (sending0 run0 .notice).settled ∧ (0x02 : Byte) ≠ 0x12 ∧ (0x02 : Byte) ≠ 0x0C ∧ Status.state ≠ Status.ok ∧
      (sending0 run0 (.reply 0x12 .busy)).tkp.tx = some { frame := outFrame, action := .reply 0x12 .busy } ∧
      (answer.settled ∧ (answer.seg .b).offer = some (rec6 (.answered .ok [9] 0)) ∧
        (answer.seg .b).records = [rec6 .queued] ++ rec6 (.answered .ok [9] 0) :: [] ∧
          rec6 (.answered .ok [9] 0) ∉ [rec6 .queued]) ∧
        (sending0 run0 (.reply 0x0C .ok)).pmg.sleepReq = false ∧
          (asleep.settled ∧ asleep.pmg.sleepReq = true ∧ asleep.pmg.power = .run ∧ asleep.pmg.ignition = false ∧
            asleep.pmg.runDown.isSome) := by decide

theorem witness_SoftReset :
    let soft := fun s : State => sending0 { s with tkp := { s.tkp with softReset := true } } (.reply 0x12 .ok)
    let met := fun s : State => s.tkp.softReset = true ∧
      s.tkp.tx = some { frame := outFrame, action := .reply 0x12 .ok }
    ((soft run0).pmg.power = .run ∧ met (soft run0) ∧ (soft run0).pnd.scanning = true) ∧
      ((soft park0).pmg.power = .parkWatch ∧ met (soft park0) ∧ (soft park0).pnd.scanning = true) ∧
        (soft sleep0).pmg.power = .sleep ∧ met (soft sleep0) ∧ (soft sleep0).resting := by decide

theorem witness_SegmentTimers :
    let polling := { run0 with sgb := { seg0 with poll := some poll6, sending := some [1], spacing := some 8 } }
    let fault := { run0 with sgb := { seg0 with state := .fault, probe := true } }
    ((polling.seg .b).poll = some poll6 ∧ (polling.seg .b).sending = some [1]) ∧
      ((ringing.seg .b).state = .running ∧ (ringing.seg .b).sending = none ∧ (ringing.seg .b).reception = .none) ∧
        (run0.seg .b).state = .stopped ∧
          (({ seg6 with reception := .ignoring }) : Segment).reception = .ignoring ∧
            ((fault.seg .b).state = .fault ∧ (fault.seg .b).probe = true) := by decide

theorem witness_PollStart :
    let queued := { ringing with sgb := { seg0 with records := [rec6 .sent, rec6 .queued] } }
    let skips := { ringing with sgb := { seg0 with pointer := 1 } }
    let bare := { ringing with sgb := { seg0 with ring := Segment.reset.ring } }
    let far : Vector RingEntry 12 := Vector.ofFn fun i =>
      { valid := true, enabled := i.val = 11, slot := 6, next := some (i + 1) }
    let starts := fun s : State => s.pmg.power = .run ∧ (s.seg .b).state = .running ∧ (s.seg .b).poll = none ∧
      (s.seg .b).spacing = none ∧ (s.seg .b).headMoved = false ∧ (s.seg .b).pointer ∈ (s.seg .b).walkSet
    let visit := fun (s : State) (k : Nat) => (fun i : RingIx => match (s.seg .b).ring[i].next with
      | some n => if (s.seg .b).ring[n].valid then n else (s.seg .b).cfg.head
      | none => (s.seg .b).cfg.head)^[k] (s.seg .b).pointer
    let pollable := fun (s : State) (k : Nat) => (s.seg .b).ring[visit s k].valid = true ∧
      (s.seg .b).ring[visit s k].enabled = true
    let away := { ringing with sgb := { seg0 with ring := far } }
    (starts ringing ∧ pollable ringing 0 ∧ (ringing.seg .b).records = []) ∧
      (starts queued ∧ pollable queued 0 ∧ (queued.seg .b).records = [rec6 .sent] ++ rec6 .queued :: [] ∧
        (queued.seg .b).ring[visit queued 0].slot = 6 ∧ (rec6 .queued).slot = 6 ∧ (rec6 .sent).state ≠ .queued) ∧
        (starts skips ∧ ¬pollable skips 0 ∧ pollable skips 1) ∧
          (starts away ∧ (∀ j < 11, ¬pollable away j) ∧ pollable away 11) ∧
            (11 : RingIx) ∉ ({ seg0 with pointer := 11 }).walkSet ∧
              (starts bare ∧ (∀ j < 12, ¬pollable bare j) ∧
                ∀ i : RingIx, ((bare.seg .b).ring[i].valid && (bare.seg .b).ring[i].enabled) = false) ∧
                (run0.seg .b).state ≠ .running ∧ (waiting.seg .b).poll.isSome :=
  ⟨by decide, by decide, by decide, by decide, by decide, by decide, by decide, by decide⟩

/-- PARK_WATCH with segment B RUNNING at the start of a pass over a ring. -/
def pass0 (ring : Vector RingEntry 12) : State :=
  { park0 with sgb := { seg0 with
    ring := ring, pass := some { next := some 0, visited := [], polled := false } } }

/-- Entry 0 has been polled and is then written with next 2: entry 1, which the pass visits next, lies outside the walk
set. Entries 1 and 2 name the slot of a watched position. -/
def rewritten : State :=
  let ring := put (put (put ring0
    0 { valid := true, enabled := true, slot := 6, next := some 2 })
    1 { valid := true, enabled := true, slot := 6, next := some 2 })
    2 { valid := true, enabled := true, slot := 6, next := none }
  { park0 with sgb := { seg0 with ring := ring, pass := some { next := some 1, visited := [0], polled := true } } }

theorem witness_WatchPassPolls :
    let s := pass0 ring0
    let none' := { s with pmg := { s.pmg with watchSet := [0] } }
    let later := { s with sgb := { s.sgb with pass := some { next := some 3, visited := [0, 1, 2], polled := true } } }
    let done := { s with sgb := { s.sgb with pass := some { next := none, visited := [], polled := false } } }
    let starts := fun s : State => s.pmg.power = .parkWatch ∧ (s.seg .b).state = .running ∧ (s.seg .b).poll = none ∧
      (s.seg .b).spacing = none
    let fresh := fun s : State =>
      (s.seg .b).pass = some { next := some (s.seg .b).cfg.head, visited := [], polled := false }
    let watched := fun (s : State) (slot : Slot) => ∃ p ∈ s.pmg.watchSet, ∃ ix : SeatIx,
      s.positions[p].presence ≠ .noSeat ∧ s.positions[p].source = some (.seat slot ix)
    let eligible := fun (s : State) (i : RingIx) => (s.seg .b).ring[i].valid = true ∧
      (s.seg .b).ring[i].enabled = true ∧ watched s (s.seg .b).ring[i].slot ∧ i ∈ (s.seg .b).walkSet
    let polls := fun s : State => ∃ t q, exec (.pollStart .b) s = .next t ∧ (t.seg .b).poll = some q
    let ends := fun s : State => ∃ t, exec (.pollStart .b) s = .next t ∧ (t.seg .b).poll = none
    (starts none' ∧ fresh none' ∧ ∀ slot : Slot, ¬watched none' slot) ∧
      (starts s ∧ fresh s ∧ eligible s (s.seg .b).cfg.head) ∧
        (starts later ∧ (later.seg .b).pass = some { next := some 3, visited := [0, 1, 2], polled := true } ∧
          (3 : RingIx) ∉ ([0, 1, 2] : List RingIx) ∧ eligible later 3) ∧ polls later ∧ (starts done ∧ ends done) ∧
          (starts { s with sgb := seg0 } ∧ ({ s with sgb := seg0 }.seg .b).pass = none) ∧
            (starts rewritten ∧ (rewritten.seg .b).pass = some { next := some 1, visited := [0], polled := true } ∧
              (1 : RingIx) ∉ ([0] : List RingIx) ∧ ¬eligible rewritten 1) :=
  ⟨by decide, by decide, by decide, ⟨_, _, rfl, rfl⟩, ⟨by decide, _, rfl, rfl⟩, by decide, by decide⟩

/-- The pass goes past the entry that the write left outside the walk set, and polls the next eligible one (R87; log
entry 32). -/
theorem test_pass_walk_set :
    ∃ t, exec (.pollStart .b) rewritten = .next t ∧ (t.seg .b).poll.map (·.entry) = some 2 :=
  ⟨_, rfl, by decide⟩

/-- What the statements about a poll assume of segment B. -/
abbrev pollOut (s : State) : Prop :=
  s.settled ∧ (s.seg .b).sentWhole ∧ (s.seg .b).state = .running ∧ (s.seg .b).cfg.enable = true ∧
    (s.seg .b).poll = some poll6

/-- A disable of segment B that waits for the end of its poll. -/
def disabled (s : State) : State := { s with sgb := { s.sgb with cfg := { s.sgb.cfg with enable := false } } }

/-- What the statement about the end of a poll with a disable waiting assumes of segment B. -/
abbrev stopMet (s : State) : Prop :=
  s.settled ∧ (s.seg .b).sentWhole ∧ (s.seg .b).state = .running ∧ (s.seg .b).cfg.enable = false ∧
    (s.seg .b).poll = some poll6 ∧ (s.seg .b).reception = .receiving ∧ (s.seg .b).window.isSome

theorem witness_PollMissed :
    ((ringing.seg .b).state = .running ∧ (ringing.seg .b).poll = none ∧
      ({ seg0 with reception := .receiving }).reception = .receiving) ∧
      (pollOut waiting ∧ waiting.slots[poll6.slot].state = .empty ∧ (waiting.seg .b).reception = .receiving ∧
        (waiting.seg .b).window.isSome ∧ parseReport [0x86] = none ∧ parseReport reportBytes = some report6) ∧
        (let s := { waiting with sgb := { seg6 with poll := some { poll6 with slot := 9 }, records := [] } };
          (s.seg .b).sentWhole ∧ (s.seg .b).poll.map (·.slot) = some 9 ∧ report6.slot ≠ 9) ∧
          (∀ s ∈ [waiting, slot6 .active 1 0, slot6 .active 2 0, slot6 .lost 3 19, slot6 .refused 19 0],
            stopMet (disabled s)) ∧
            ((slot6 .active 2 0).positions[(5 : Pos)].losable 6 = true ∧ report6.slot = poll6.slot ∧
              seg6.cfg.missLimit ≤ 2 + 1 ∧ seg6.cfg.detachCount ≤ 19 + 1 ∧ 1 + 1 < seg6.cfg.missLimit) :=
  ⟨by decide, by decide, by decide, by decide, by decide⟩

/-- What the statement about a counted miss assumes. -/
abbrev missMet (s : State) : Prop :=
  pollOut s ∧ (s.seg .b).window.isSome ∧ s.slots[poll6.slot].lastSeg = some .b

theorem witness_MissCounted :
    (missMet (slot6 .active 1 0) ∧ (slot6 .active 1 0).slots[(6 : Slot)].miss + 1 < seg6.cfg.missLimit) ∧
      (missMet (slot6 .active 2 0) ∧ seg6.cfg.missLimit ≤ (slot6 .active 2 0).slots[(6 : Slot)].miss + 1 ∧
        (slot6 .active 2 0).positions[(5 : Pos)].losable 6 = true) ∧
        (missMet (slot6 .lost 3 18) ∧ (slot6 .lost 3 18).slots[(6 : Slot)].lost + 1 < seg6.cfg.detachCount) ∧
          (missMet (slot6 .lost 3 19) ∧ seg6.cfg.detachCount ≤ (slot6 .lost 3 19).slots[(6 : Slot)].lost + 1 ∧
            (slot6 .lost 3 19).positions[(5 : Pos)].fedBy 6 = true) ∧
            (missMet (slot6 .refused 18 0) ∧
              (slot6 .refused 18 0).slots[(6 : Slot)].miss + 1 < seg6.cfg.detachCount) ∧
              (missMet (slot6 .refused 19 0) ∧
                seg6.cfg.detachCount ≤ (slot6 .refused 19 0).slots[(6 : Slot)].miss + 1 ∧
                  ∀ q : Pos, ({ slot6 .refused 19 0 with positions := run0.positions }).positions[q].fedBy 6 = false) :=
  ⟨by decide, by decide, by decide, by decide, by decide, by decide⟩

/-- A state with the tables of `listed`. -/
def withLists (s : State) : State := { s with node := listed.node, seatmap := listed.seatmap }

/-- What the statement about a good REPORT assumes. -/
abbrev reportMet (s : State) : Prop :=
  pollOut s ∧ (s.seg .b).reception = .receiving ∧ report6.slot = poll6.slot

/-- Slot 6 ACTIVE with a listed serial; the same with the REPORT's seq; the same with another serial. -/
def known : State := withLists (slot6 .active 0 0)

def stale : State := { known with slots := put known.slots 6 { known.slots[(6 : Slot)] with lastSeq := some 5 } }

def other6 : State := { known with slots := put known.slots 6 { known.slots[(6 : Slot)] with serial := some 7 } }

/-- A state with a full mirror FIFO. -/
def mirrored (s : State) : State :=
  { s with tkp := { s.tkp with mirror := List.replicate 8 { slot := 6, seg := .b, serial := 1, seq := 0, flags := 0
                                                            count := 0, raw := [] } } }

/-- `listed` with no SEATMAP entry and a seat count of 2, for UNMAPPED_SEAT and COUNT_MISMATCH. -/
def unmapped6 (s : State) : State :=
  { s with
    node := put s.node 3 { valid := true, serial := 0x01020304, seatCount := 2, mirror := false }
    seatmap := run0.seatmap }

theorem witness_ReportHandled :
    let there := fun s : State => ∃ i : Fin 16, s.node[i].valid = true ∧ s.node[i].serial = report6.serial
    let slot := fun s : State => s.slots[(6 : Slot)]
    let strange := fun st : SlotState => { slot6 st 0 0 with
      slots := put run0.slots 6 { (slot6 st 0 0).slots[(6 : Slot)] with serial := some 7 } }
    (parseReport leverBytes = some { report6 with flags := 1 } ∧ reportMet waiting ∧ (slot waiting).state = .empty ∧
      ¬there waiting) ∧
      (parseReport reportBytes = some report6 ∧ report6.flags.getLsbD 0 = false) ∧
        (reportMet stale ∧ (slot stale).state = .active ∧ (slot stale).serial = some report6.serial ∧
          (slot stale).lastSeq = some report6.seq ∧ (slot stale).lastSeg = some .b ∧ there stale) ∧
          (∀ st ∈ [SlotState.active, .lost, .refused], reportMet (slot6 st 0 0) ∧
            (slot (slot6 st 0 0)).state = st ∧ (slot (slot6 st 0 0)).serial = some report6.serial ∧
              (slot (slot6 st 0 0)).lastSeg = some .b ∧ (slot (slot6 st 0 0)).lost = 0 ∧ ¬there (slot6 st 0 0)) ∧
            (reportMet (strange .active) ∧ (slot (strange .active)).state ≠ .empty ∧
              (slot (strange .active)).serial ≠ some report6.serial ∧ ¬there (strange .active)) ∧
              (∀ s ∈ [withLists waiting, known, withLists (slot6 .lost 3 1), withLists (slot6 .refused 3 0), other6],
                reportMet s ∧ s.pmg.power ≠ .parkWatch ∧ s.tkp.mirror.length < 8 ∧ s.node = listed.node ∧
                  s.seatmap = listed.seatmap ∧ (slot s).lastSeq ≠ some report6.seq) ∧
                (serialsUnique listed.node ∧ listed.node[(3 : Fin 16)].valid = true ∧
                  listed.node[(3 : Fin 16)].serial = report6.serial ∧ seatsUnique listed.seatmap) ∧
                  ((slot other6).state ≠ .empty ∧ (slot other6).serial ≠ some report6.serial ∧
                    other6.positions[(5 : Pos)].fedBy 6 = true) ∧
                    ((0 : SeatIx).val < known.node[(3 : Fin 16)].seatCount ∧ (0 : SeatIx).val < report6.blocks.length ∧
                      report6.blocks[0]?.isSome ∧ known.seatmap[(0 : Fin 24)].valid = true ∧
                        known.seatmap[(0 : Fin 24)].slot = 6 ∧ known.seatmap[(0 : Fin 24)].seat = 0 ∧
                          known.node[(3 : Fin 16)].mirror = true) ∧
                      (reportMet (mirrored known) ∧ 8 ≤ (mirrored known).tkp.mirror.length ∧
                        (mirrored known).node = listed.node) ∧
                        (reportMet (unmapped6 known) ∧ serialsUnique (unmapped6 known).node ∧
                          (unmapped6 known).node[(3 : Fin 16)].mirror = false ∧
                            (∀ j : Fin 24, (unmapped6 known).seatmap[j].valid = false) ∧
                              report6.blocks.length ≠ (unmapped6 known).node[(3 : Fin 16)].seatCount) :=
  ⟨by decide, by decide, by decide, by decide, by decide, by decide, by decide, by decide, by decide, by decide,
    by decide⟩

theorem witness_LineStuck :
    let polled := fun s : State => s.settled ∧ (s.seg .b).sentWhole ∧ (s.seg .b).state = .running ∧
      (s.seg .b).sending = none ∧ (s.seg .b).poll = some poll6
    let bare := fun s : State => { s with sgb := { s.sgb with records := [rec6 .queued] } }
    (let s := quiet6 .active;
      s.settled ∧ (s.seg .b).state = .running ∧ (s.seg .b).sending = none ∧ (s.seg .b).poll = none ∧
        (s.seg .b).cfg.enable = true ∧ s.slots[(6 : Slot)].state = .active ∧
          s.slots[(6 : Slot)].lastSeg = some .b ∧ s.positions[(5 : Pos)].losable 6 = true) ∧
      (let s := slot6 .active 2 0;
        polled s ∧ (s.seg .b).records = [] ++ rec6 .sent :: [] ∧ (rec6 .sent).state = .sent ∧
          (s.seg .b).cfg.missLimit ≤ s.slots[(6 : Slot)].miss + 1) ∧
        (polled (bare (slot6 .active 1 0)) ∧ (rec6 .queued).isAnswered = false) ∧
          (let s := slot6 .lost 3 19;
            polled s ∧ (s.seg .b).cfg.detachCount ≤ s.slots[(6 : Slot)].lost + 1 ∧
              s.positions[(5 : Pos)].fedBy 6 = true) ∧
            (let s := slot6 .refused 19 0;
              polled s ∧ (s.seg .b).cfg.detachCount ≤ s.slots[(6 : Slot)].miss + 1) ∧
              polled waiting ∧ waiting.slots[(6 : Slot)].lastSeg ≠ some .b :=
  ⟨by decide, by decide, by decide, by decide, by decide, by decide, by decide⟩

theorem witness_LoadArithmetic : PosCfg.default.gain ≤ 127 ∧ 16240 ≤ 16240 ∧ 0 < 16240 := by decide

theorem witness_BandAndBuckle :
    PosCfg.default.lawful ∧ (let c := { PosCfg.default with gain := 127 };
      c.lawful ∧ 299 < c.tObj ∧ c.tObj ≤ 300 ∧ 1199 < c.tSmall ∧ c.tSmall ≤ 1200 ∧ 2599 < c.tAdult ∧
        c.tAdult ≤ 2600 ∧ (Band.light.up = some .small ∧ Band.small.threshold c ≤ 1200) ∧
          ((∀ u, Band.small.up = some u → u = .large) ∧ 1200 < Band.large.threshold c) ∧
            Band.small.threshold c ≤ 1100 + c.hyst ∧ 1099 + c.hyst < Band.small.threshold c) ∧
        Buckle.fault ≠ Buckle.opened :=
  ⟨by decide, ⟨by decide, by decide, by decide, by decide, by decide, by decide, by decide, ⟨by decide, by decide⟩,
    ⟨fun u h => by simpa [Band.up] using h.symm, by decide⟩, by decide, by decide⟩, by decide⟩

/-- A position at which rule 3 of section 3.5 matches and rules 4 and 5 follow it. -/
def latched35 : Position := { seated with band := .light, anchorA := true, anchorB := true }

/-- The snapshot that arms rule 3. -/
def armed35 : Vector Nat 24 := put (Vector.replicate 24 0) (3 : RuleIx) 1

theorem witness_RuleEvaluation :
    (ruleMatches rules35 armed35 10 latched35 4 ∧ rules35[(4 : RuleIx)].outcome = some .childSeatEmpty) ∧
      (ruleMatches rules35 armed35 10 latched35 3 ∧ rules35[(3 : RuleIx)].outcome = none) ∧
        (armed35[(3 : RuleIx)] ≠ 0 ∧ (3 : RuleIx) ∈ (chainOf rules35 24 4).tail) := by
  simp only [ruleMatches, ruleHits]
  exact ⟨⟨⟨by decide, by decide⟩, by decide⟩, ⟨⟨by decide, by decide⟩, by decide⟩, by decide⟩

theorem witness_Confirmation :
    let r := { seated with pending := some { cls := .adult, count := 2 } }
    (Cls.smallOccupant = r.cls) ∧ (Cls.adult ≠ r.cls ∧ ∃ q, r.pending = some q ∧ q.cls = .adult ∧ 3 = q.count + 1) ∧
      (Cls.vacant ≠ r.cls ∧ ∀ q, r.pending = some q → q.cls ≠ .vacant) ∧ 3 ≤ PosCfg.default.upConfirm ∧
        PosCfg.default.upConfirm ≤ 3 ∧ 1 < PosCfg.default.downConfirm :=
  ⟨by decide, ⟨by decide, _, rfl, by decide, by decide⟩, ⟨by decide, fun q h => by cases h; decide⟩, by decide,
    by decide, by decide⟩

theorem witness_BlockHandled :
    Position.reset.presence = .noSeat ∧ seated.presence ≠ .noSeat ∧ block28.supplyLow = false ∧
      ({ block28 with supplyLow := true }).supplyLow = true ∧ seated.seedDue = false ∧
        ({ seated with seedDue := true }).seedDue = true := by decide

theorem witness_LocalScan :
    let scan := fun cs => { run0 with lsu := { run0.lsu with remaining := cs, copy := some LocalCfg.default } }
    let bare := { run0 with lsu := { run0.lsu with
      remaining := [.bkl0, .vhalf], cfg := { LocalCfg.default with fitted0 := false } } }
    (run0.pmg.power = .run ∧ run0.lsu.timer.isSome ∧ run0.lsu.remaining = []) ∧
      (∀ c ∈ [Channel.mat0 7, .mat1 0, .bkl0, .bkl1], (scan [c, .vhalf]).lsu.remaining = c :: [.vhalf] ∧
        (scan [c, .vhalf]).settled) ∧
        ((scan [.vhalf]).lsu.remaining = .vhalf :: [] ∧ (scan [.vhalf]).lsu.followUp = false ∧
          (scan [.vhalf]).settled ∧ (scan [.vhalf]).lsu.copy = some LocalCfg.default) ∧
          (bare.lsu.remaining = .bkl0 :: [.vhalf] ∧ bare.lsu.cfg.fitted0 = false ∧ bare.settled) ∧
            (run0.lsu.cfg.fitted0 = true ∧ run0.lsu.cfg.fitted1 = true ∧ run0.pmg.power ≠ .parkWatch) := by decide

theorem witness_ReminderEvaluation :
    let i := in711 true false .opened
    (in711 false false .opened).ignition = false ∧ ({ i with presence := .noSeat }).presence = .noSeat ∧
      (i.ignition = true ∧ i.presence ≠ .noSeat ∧ ({ i with presence := .sourceLost }).presence = .sourceLost) ∧
        (i.presence = .live ∧ i.buckle = .opened ∧ i.profile.required.getLsbD i.cls.code = true) ∧
          (in711 true false .latched).buckle = .latched ∧ (in711 true false .fault).buckle = .fault ∧
            ¬i.profile.required.getLsbD Cls.childSeatEmpty.code = true := by decide

theorem witness_ReminderTick :
    let i := in711 true true .opened
    let same := fun r : Reminder => (evaluate i r).1.state = r.state
    let on := { at711 .audible 1 with phase := some .on }
    let bare := fun (gated moving : Bool) =>
      { i with moving := moving, profile := { i.profile with visual := 0, speedGated := gated } }
    let ends := fun (j : RemInputs) (r : Reminder) => (evaluate j r).1.state = r.state ∧ r.state = .grace ∧
      r.ticks = 1 ∧ j.profile.visual = 0
    (run0.pmg.power = .run ∧ run0.tick.isSome ∧ run0.settled) ∧ ¬same (at711 .belted 0) ∧ same (at711 .quiet 0) ∧
      same (at711 .grace 2) ∧ same (at711 .grace 1) ∧ i.profile.visual ≠ 0 ∧ same (at711 .visual 2) ∧
        same (at711 .visual 1) ∧ same { at711 .visual 1 with bursts := 6 } ∧
          i.profile.bursts ≤ 6 ∧ same { on with ticks := 2 } ∧ same { on with bursts := 5 } ∧
            i.profile.bursts ≤ 5 + 1 ∧ same on ∧ same { on with phase := some .gap } ∧
              (ends (bare false false) (at711 .grace 1) ∧ ends (bare true true) (at711 .grace 1) ∧
                ends (bare true false) (at711 .grace 1) ∧ ends (bare true false) { at711 .grace 1 with bursts := 6 } ∧
                  (at711 .grace 1).bursts < i.profile.bursts) := by decide

theorem witness_ChimeGrant :
    let c := Chd.reset.raisePos 9 1
    Chd.reset.requests[(9 : Pos)] = none ∧ c.requests[(9 : Pos)].isSome ∧ c.grant = .pos 9 ∧ c.alert = none ∧
      Chd.reset.grant = .none ∧ c.output = some 1 ∧ c.raiseAlert.alert.isSome ∧ c.raiseAlert.grant = .alert ∧
        c.raiseAlert.alert = some .tone3 ∧ (c.raiseTest.grant = .test) := by decide

theorem witness_ChimeTimers :
    let test := fun q => { run0 with chd := { Chd.reset with test := some q, grant := .test } }
    ({ run0 with chd := run0.chd.raiseAlert }).chd.alert = some .tone3 ∧ run0.chd.alert = none ∧
      run0.chd.test = none ∧ ((test 2).chd.test = some 2 ∧ (2 : Fin 4) < 3) ∧
        ((test 3).chd.test = some 3 ∧ (test 3).chd.grant = .test) := by decide

theorem witness_PanelScan :
    run0.pnd.scanning = true ∧ run0.pnd.copy = some PanelCfg.default ∧ run0.pnd.common < 4 ∧
      PanelCfg.default.layout = .fourByEight ∧ PanelCfg.default.enable = true ∧
        (let s := { run0 with pnd := { run0.pnd with
            copy := some { PanelCfg.default with enable := false, layout := .eightByFour }, common := 7 } };
          s.pnd.scanning = true ∧ s.pnd.common < 8 ∧ s.pnd.frameTest = false) ∧
          State.reset.pnd.scanning = false := by decide

theorem witness_WatchTimers :
    let m := park0.pmg
    let alerting := { park0 with pmg := { m with sub := some .alerting, alertRepeat := some 15 } }
    park0.pmg.power = .parkWatch ∧ m.interval.isSome ∧ m.dwellTimer = true ∧ m.sub = some .watching ∧
      58 + 1 < m.timing.dwell ∧ m.timing.dwell ≤ 59 + 1 ∧
        (alerting.pmg.power = .parkWatch ∧ alerting.pmg.sub ≠ some .watching ∧
          alerting.pmg.sub = some .alerting ∧ alerting.pmg.alertRepeat.isSome) ∧
          (m.elapsedTimer = true ∧ 28 + 1 < m.timing.watchMax ∧ m.timing.watchMax ≤ 29 + 1) := by decide

theorem witness_LastWatchedPositionSleeps :
    let last := { park0 with pmg := { park0.pmg with watchSet := [5] } }
    let scan := { park0 with lsu := { Lsu.reset with remaining := [.bkl0, .vhalf] } }
    (∀ s ∈ [park0, last], s.takes ∧ s.settled ∧ s.pmg.power = .parkWatch ∧ s.cfs.protects .seatmap = false ∧
      s.seatmap[(0 : Fin 24)].valid = true ∧ s.seatmap[(0 : Fin 24)].pos = 5 ∧
        s.positions[(5 : Pos)].presence ≠ .noSeat) ∧
      (∀ q ∈ last.pmg.watchSet, q = 5) ∧
        scan.settled ∧ scan.pmg.power = .parkWatch ∧ scan.lsu.remaining = .bkl0 :: [.vhalf] ∧
          scan.lsu.cfg.fitted0 = true := by decide

/-- States that keep the laws and step. -/
def lawful : List State := [waiting, sounding0, off0, park0, sleep0]

/-- They step. -/
theorem witness_steps : ∃ t, step { sounding0 with pending := [.reminderTick] } = .next t := ⟨_, rfl⟩

theorem witness_StepKeepsCapacities : ∀ s ∈ lawful, s.capacities := by decide

theorem witness_StepKeepsSegmentLaws : (∀ s ∈ lawful, s.sentWhole) ∧ waiting.pollsWhole :=
  ⟨by decide, fun g => by cases g <;> decide⟩

theorem witness_StepKeepsPowerLaws : (∀ s ∈ lawful, s.watchWhole) ∧ ∀ s ∈ lawful, s.ignitionWhole ∧ s.panelWhole :=
  ⟨by decide, by decide⟩

theorem witness_StepKeepsChimeLaws : ∀ s ∈ lawful, s.chd.whole ∧ s.requestsWhole := by decide

/-- A state with rules, an armed rule, a pending candidate and an ACTIVE slot. -/
def rich : State :=
  { withLists (slot6 .active 2 0) with
    rules := rules35
    positions := put run0.positions 5 { seated with
      buckle := .latched, pending := some { cls := .adult, count := 2 }, armed := put (Vector.replicate 24 0) (3 : RuleIx) 10 } }

theorem witness_StepKeepsTableLaws : rich.mapsWhole ∧ rich.rulesWhole ∧ rich.loadsWhole :=
  ⟨by decide, ⟨by decide, by decide, nofun, by decide⟩, ⟨by decide, nofun, by decide, by decide⟩⟩

theorem witness_StepKeepsRecordLaws :
    (rich.positionsWhole ∧ rich.pendingWhole ∧ rich.armedWhole ∧ rich.slotsWhole) ∧
      ∃ t, step { rich with pending := [.replyWindowExpiry .b] } = .next t :=
  ⟨⟨by decide, by decide, by decide, by decide⟩, _, rfl⟩

theorem witness_FramesDecode :
    (Instr.tblrd 0x21 [0x04, 0x05]).wellFormed = true ∧
      commandFrame (.tblrd 0x21 [0x04, 0x05]) = some [0xA5, 0x03, 0x21, 0x02, 0x04, 0x05, 0x00, 0x2F] := by decide

end Sys2Proof.Tests
end

section
/-! SUPPORT. The records that the table laws and the record laws speak of, and how a step can change them. -/

namespace Sys2Proof.Machine

/-! ### The records of a state -/

/-- The part of the state that the laws of tables and records speak of. -/
structure Records where
  positions : Vector Position 16
  slots : Vector SlotRec 16
  node : Vector NodeEntry 16
  seatmap : Vector SeatMapEntry 24
  poscfg : Vector PosCfg 16
  rules : Rules
  staging : Option Staged
  storedRules : Vector (Option RuleEntry) 24
  storedCfgs : Vector (Option PosCfg) 16

/-- The records of a state. -/
def State.records (s : State) : Records :=
  { positions := s.positions, slots := s.slots, node := s.node, seatmap := s.seatmap, poscfg := s.poscfg,
    rules := s.rules, staging := s.cfs.staging, storedRules := s.cfs.store.rule, storedCfgs := s.cfs.store.poscfg }

/-- What an event can make of the record `r` of position `p`. -/
inductive PosChange (cfg : PosCfg) (rules : Rules) (p : Pos) (r : Position) : Position → Prop
  /-- RME handles the reminder, which leaves OFF at a position without a seat. -/
  | reminded (out : Reminder) (h : r.presence = .noSeat → out.state = .off) : PosChange cfg rules p r (r.reminded out)
  /-- The notice owed is set or sent. -/
  | noticed (owed : Bool) : PosChange cfg rules p r { r with owed := owed }
  /-- The position is cleared (R4). -/
  | cleared : PosChange cfg rules p r Position.reset
  /-- Its source is lost (R10). -/
  | lost (h : r.presence = .live ∨ r.presence = .held) : PosChange cfg rules p r r.lose
  /-- OCE handles a block (R24). -/
  | block (src : Source) (b : Block) : PosChange cfg rules p r (r.takeBlock cfg rules p src b)

/-- What one action of a step can make of the records. -/
inductive Change (x : Records) : Records → Prop
  | position (p : Pos) (r : Position) (h : PosChange x.poscfg[p] x.rules p x.positions[p] r) :
      Change x { x with positions := put x.positions p r }
  | slot (i : Slot) (r : SlotRec) (h : x.slots[i].whole → r.whole) : Change x { x with slots := put x.slots i r }
  | node (i : Fin 16) (e : NodeEntry) (h : nodeDuplicate x.node i e = false) :
      Change x { x with node := put x.node i e }
  | seatmap (i : Fin 24) (e : SeatMapEntry) (h : seatDuplicate x.seatmap i e = false) :
      Change x { x with seatmap := put x.seatmap i e }
  | poscfg (p : Pos) (c : PosCfg) (h : c.lawful) :
      Change x { x with poscfg := put x.poscfg p c, positions := put x.positions p x.positions[p].reseed }
  | rule (i : RuleIx) (e : RuleEntry) (hc : e.canonical) (h : chainTooLong x.rules i e = false) :
      Change x { x with rules := put x.rules i e, positions := Vector.ofFn fun p => x.positions[p].disarm i }
  /-- A soft reset clears every position and every slot (R199). -/
  | softReset :
      Change x { x with positions := Vector.replicate 16 Position.reset, slots := Vector.replicate 16 SlotRec.reset }
  /-- The staging record takes live entries alone (R207). -/
  | stage (st : Option Staged) (hr : ∀ i e, st = some (.rule i e) → ∃ j : RuleIx, e = x.rules[j])
      (hc : ∀ i c, st = some (.poscfg i c) → ∃ j : Pos, c = x.poscfg[j]) : Change x { x with staging := st }
  /-- The store takes the staged entry alone, and loses records (R208, R210, R212). -/
  | store (rs : Vector (Option RuleEntry) 24) (cs : Vector (Option PosCfg) 16)
      (hr : ∀ i : RuleIx, ∀ e ∈ rs[i], e ∈ x.storedRules[i] ∨ ∃ j, x.staging = some (.rule j e))
      (hc : ∀ i : Fin 16, ∀ c ∈ cs[i], c ∈ x.storedCfgs[i] ∨ ∃ j, x.staging = some (.poscfg j c)) :
      Change x { x with storedRules := rs, storedCfgs := cs }
  /-- A hard reset loads the tables from the store (R171, R206). -/
  | boot (st : Store) (q : List Instr) (n : Nat) (hr : st.rule = x.storedRules) (hc : st.poscfg = x.storedCfgs) :
      Change x (State.boot st q n).records

/-- The records of `t` come from those of `s` by single changes. -/
def Moves (s t : State) : Prop := Relation.ReflTransGen Change s.records t.records

theorem Moves.refl {s : State} : Moves s s := Relation.ReflTransGen.refl

theorem Moves.trans {s t u : State} (h : Moves s t) (h' : Moves t u) : Moves s u := Relation.ReflTransGen.trans h h'

theorem Moves.of_eq {s t : State} (h : t.records = s.records) : Moves s t := by
  unfold Moves; rw [h]

/-- A move after an action that leaves the records alone. -/
theorem Moves.after {s t u : State} (h' : Moves t u) (h : t.records = s.records) : Moves s u := (Moves.of_eq h).trans h'

theorem Moves.one {s t : State} (h : Change s.records t.records) : Moves s t := Relation.ReflTransGen.single h

/-! ### Operations that leave the records alone -/


@[simp] theorem State.modSeg_records (s : State) (g : Seg) (f : Segment → Segment) :
    (s.modSeg g f).records = s.records := by
  cases g <;> rfl

@[simp] theorem State.modPmg_records (s : State) (f : Pmg → Pmg) : (s.modPmg f).records = s.records := rfl
@[simp] theorem State.startSend_records (s : State) (k t : Byte) (b : List Byte) (a : SendAction) :
    (s.startSend k t b a).records = s.records := rfl

@[simp] theorem State.fillReserved_records (s : State) (st : Status) (body : List Byte) :
    (s.fillReserved st body).records = s.records := by
  unfold State.fillReserved; split <;> rfl

@[simp] theorem deliver_records (s : State) : (deliver s).records = s.records := by rw [deliver_shape]; rfl

@[simp] theorem State.enterSleep_records (s : State) : s.enterSleep.records = s.records := by
  unfold State.enterSleep; rw [Cfs.suspend_eq]; rfl

@[simp] theorem State.settle_records (s : State) : s.settle.records = s.records := by
  unfold State.settle State.sleepIfEmpty
  split <;> simp

@[simp] theorem State.startScan_records (s : State) : s.startScan.records = s.records := by
  unfold State.startScan
  dsimp only
  split
  · rfl
  · split <;> rfl
  · rfl

@[simp] theorem State.requestScan_records (s : State) : s.requestScan.records = s.records := by
  unfold State.requestScan
  split
  · simp
  · rfl

@[simp] theorem State.startBlocks_records (s : State) : s.startBlocks.records = s.records :=
  State.requestScan_records _

@[simp] theorem State.leaveSleep_records (s : State) : s.leaveSleep.records = s.records := by
  unfold State.leaveSleep; rw [Cfs.restart_eq]; rfl

@[simp] theorem State.wake_records (s : State) (add : Causes → Causes) : (s.wake add).records = s.records := by
  unfold State.wake; simp

@[simp] theorem State.returnToRun_records (s : State) : s.returnToRun.records = s.records :=
  State.requestScan_records _

@[simp] theorem State.formWatch_records (s : State) : s.formWatch.records = s.records := by
  unfold State.formWatch
  split
  · simp
  · rfl

@[simp] theorem State.dropRecords_records (s : State) (i : Slot) : (s.dropRecords i).records = s.records := by
  unfold State.dropRecords; split <;> simp

@[simp] theorem State.offerMirror_records (s : State) (c : MirrorCopy) : (s.offerMirror c).records = s.records := by
  unfold State.offerMirror; split <;> rfl

@[simp] theorem State.watchInterval_records (s : State) : s.watchInterval.records = s.records := by
  unfold State.watchInterval
  dsimp only
  split
  · simp; rfl
  · rfl

@[simp] theorem State.whileScanning_records (s : State) (f : Pnd → Pnd) : (s.whileScanning f).records = s.records := by
  unfold State.whileScanning; split <;> rfl

@[simp] theorem State.pollStart_records (s : State) (g : Seg) : (s.pollStart g).records = s.records := by
  unfold State.pollStart
  split
  · simp
  · split <;> simp
  · rfl

/-! ### Positions -/

theorem Moves.setPos {s t : State} {p : Pos} {r : Position} (h : PosChange s.poscfg[p] s.rules p s.positions[p] r)
    (ht : t.records = (s.setPos p r).records) : Moves s t :=
  .one (ht ▸ Change.position (x := s.records) p r h)

/-- Going through a list, each visit a move, is a move. -/
theorem Moves.fold {α : Type} {f : State → α → State} (h : ∀ t a, Moves t (f t a)) (as : List α) (s : State) :
    Moves s (as.foldl f s) := by
  induction as generalizing s with
  | nil => exact .refl
  | cons a as ih => exact (h s a).trans (ih _)

/-- An evaluation leaves OFF at a position without a seat (R138, test 1). -/
theorem evaluate_noSeat {i : RemInputs} (h : i.presence = .noSeat) (r : Reminder) : (evaluate i r).1.state = .off := by
  have hd : decided i = some .off := by simp [decided, h]
  unfold evaluate
  rw [hd]
  dsimp only
  split
  · rename_i e; exact e.symm
  · rfl

/-- So does a tick, which counts nothing in OFF (R141). -/
theorem tickReminder_noSeat {i : RemInputs} (h : i.presence = .noSeat) (r : Reminder) :
    (tickReminder i r).1.state = .off := by
  have he := evaluate_noSeat h r
  unfold tickReminder
  dsimp only
  split
  · show (countTick i.profile i.moving (evaluate i r).1).1.state = .off
    unfold countTick
    rw [he]
    exact he
  · exact he

theorem State.evalAt_moves (s : State) (p : Pos) : Moves s (s.evalAt p) :=
  .setPos (.reminded _ fun h => evaluate_noSeat h _) rfl

theorem State.tickAt_moves (s : State) (p : Pos) : Moves s (s.tickAt p) :=
  .setPos (.reminded _ fun h => tickReminder_noSeat h _) rfl

theorem State.evalAll_moves (s : State) : Moves s s.evalAll := .fold State.evalAt_moves _ s

theorem State.tickAll_moves (s : State) : Moves s s.tickAll := .fold State.tickAt_moves _ s

theorem State.evalProfile_moves (s : State) (i : Fin 4) : Moves s (s.evalProfile i) :=
  .fold (fun t p => by split; exacts [t.evalAt_moves p, .refl]) _ s

theorem State.clearPos_moves (s : State) (p : Pos) : Moves s (s.clearPos p) := .setPos .cleared rfl

theorem State.clearIfSeated_moves (s : State) (p : Pos) : Moves s (s.clearIfSeated p) := by
  unfold State.clearIfSeated
  split
  exacts [.refl, s.clearPos_moves p]

theorem State.clearFedBy_moves (s : State) (i : Slot) : Moves s (s.clearFedBy i) :=
  .fold (fun t p => by split; exacts [t.clearPos_moves p, .refl]) _ s

theorem State.losePos_moves {s : State} {p : Pos} {i : Slot} (h : s.positions[p].losable i = true) :
    Moves s (s.losePos p) := by
  have hl : s.positions[p].presence = .live ∨ s.positions[p].presence = .held := by
    simpa using (Bool.and_eq_true_iff.mp h).2
  have h1 : Moves s (s.setPos p s.positions[p].lose) := .setPos (.lost hl) rfl
  exact h1.trans (State.evalAt_moves _ p)

theorem State.loseFedBy_moves (s : State) (i : Slot) : Moves s (s.loseFedBy i) := by
  unfold State.loseFedBy
  refine .fold (fun t p => ?_) _ s
  split
  · rename_i h
    exact State.losePos_moves h
  · exact .refl

theorem State.takeBlock_moves (s : State) (p : Pos) (src : Source) (b : Block) : Moves s (s.takeBlock p src b) := by
  have h1 : Moves s (s.setPos p (s.positions[p].takeBlock s.poscfg[p] s.rules p src b)) := .setPos (.block src b) rfl
  have h2 := h1.trans (State.evalAt_moves _ p)
  unfold State.takeBlock
  dsimp only
  split <;> split
  · exact h2
  · exact h1
  · exact h2
  · exact h1

theorem State.conversion_moves (s : State) (n : Count) (a b : Bool) : Moves s (s.conversion n a b) := by
  unfold State.conversion
  split
  · exact .refl
  · rename_i c cs _
    dsimp only
    generalize hs : ({ s with lsu := { s.lsu with results := put s.lsu.results c.index n, remaining := cs } } : State) = s1
    have hr : s1.records = s.records := by rw [← hs]; rfl
    have h : Moves s (s1.afterConversion c n a b) := by
      unfold State.afterConversion
      split
      · split
        · refine .trans ?_ (State.takeBlock_moves _ _ _ _)
          exact .of_eq hr
        · exact .of_eq hr
      · split
        · refine .trans ?_ (State.takeBlock_moves _ _ _ _)
          exact .of_eq hr
        · exact .of_eq hr
      · exact .of_eq hr
      · exact .of_eq hr
      · exact .of_eq hr
    split
    · exact h.trans (.of_eq (by simp))
    · exact h

end Sys2Proof.Machine
end

section
/-! SUPPORT. The moves of UTR, of the table writes and of every command over the records. -/

namespace Sys2Proof.Machine

/-! ### Slots -/

theorem Moves.setSlot {s : State} {i : Slot} {r : SlotRec} (h : s.slots[i].whole → r.whole) : Moves s (s.setSlot i r) :=
  .one (Change.slot (x := s.records) i r h)

theorem SlotRec.toEmpty_whole (r : SlotRec) : r.toEmpty.whole := by simp [SlotRec.toEmpty, SlotRec.whole]

/-- Fields that no law of a slot without a unit speaks of change freely where a unit stands. -/
theorem SlotRec.whole_of_unit {r r' : SlotRec} (h : r.whole) (hr : r.state ≠ .empty) (hr' : r'.state ≠ .empty)
    (h1 : r'.serial = r.serial) (h2 : r.lastSeg.isSome → r'.lastSeg.isSome) (h3 : r'.state = .refused → r'.lastSeq = none) :
    r'.whole := by
  obtain ⟨hs, hg, _, _⟩ := h
  have hg' : r'.lastSeg ≠ none := by
    rw [← Option.isSome_iff_ne_none]
    exact h2 (Option.isSome_iff_ne_none.mpr fun e => hr (hg.mpr e))
  refine ⟨?_, ?_, fun e => absurd e hr', fun e => h3 (e.resolve_left hr')⟩
  · rw [h1, ← hs]; exact iff_of_false hr' hr
  · exact iff_of_false hr' hg'

@[simp] theorem State.clearFedBy_slots (s : State) (i : Slot) : (s.clearFedBy i).slots = s.slots := by
  rw [← State.around_slots, (s.clearFedBy_spec i).1, State.around_slots]

theorem State.dropRecords_moves (s : State) (i : Slot) : Moves s (s.dropRecords i) := .of_eq (s.dropRecords_records i)

theorem State.addEvent_moves (s : State) (i : Slot) (e : SlotEvent) : Moves s (s.addEvent i e) := .setSlot fun h => h

theorem State.dispatchBlock_moves (s : State) (slot : Slot) (ix : SeatIx) (b : Block) :
    Moves s (s.dispatchBlock slot ix b) := by
  unfold State.dispatchBlock
  split
  exacts [s.takeBlock_moves _ _ _, s.addEvent_moves _ _]

theorem State.dispatchFrom_moves (slot : Slot) (n k : Nat) (bs : List Block) (s : State) :
    Moves s (State.dispatchFrom slot n k bs s) := by
  induction bs generalizing k s with
  | nil => exact .refl
  | cons b bs ih =>
    unfold State.dispatchFrom
    refine .trans ?_ (ih _ _)
    split
    exacts [s.dispatchBlock_moves _ _ _, .refl]

theorem State.accept_moves {s : State} {r : Report} (g : Seg) (n : NodeEntry) (h : s.slots[r.slot].state = .active) :
    Moves s (s.accept g r n) := by
  unfold State.accept
  dsimp only
  have h1 : Moves s (s.setSlot r.slot { s.slots[r.slot] with miss := 0, lastSeq := some r.seq }) :=
    .setSlot fun hw => SlotRec.whole_of_unit hw (h.trans_ne (by decide)) (h.trans_ne (by decide)) rfl id
      fun e => absurd (h.symm.trans e) (by decide)
  have h2 := h1.trans <| (show Moves _ (if n.mirror then
      (s.setSlot r.slot { s.slots[r.slot] with miss := 0, lastSeq := some r.seq }).offerMirror (r.copy g) else
      s.setSlot r.slot { s.slots[r.slot] with miss := 0, lastSeq := some r.seq }) by
    split
    exacts [.of_eq (by simp), .refl]).trans (State.dispatchFrom_moves r.slot n.seatCount 0 r.blocks _)
  split
  exacts [h2.trans (State.addEvent_moves _ _ _), h2]

theorem State.dropSlot_moves (s : State) (i : Slot) : Moves s (s.dropSlot i) := by
  unfold State.dropSlot
  have h := s.clearFedBy_moves i
  generalize s.clearFedBy i = u at h ⊢
  exact h.trans (.setSlot fun _ => SlotRec.toEmpty_whole u.slots[i])

theorem State.detach_moves (s : State) (i : Slot) : Moves s (s.detach i) :=
  (s.dropRecords_moves i).trans (State.dropSlot_moves _ i)

theorem State.swapOut_moves (s : State) (i : Slot) : Moves s (s.swapOut i) := by
  unfold State.swapOut
  have h := (s.dropRecords_moves i).trans (State.clearFedBy_moves _ i)
  generalize (s.dropRecords i).clearFedBy i = u at h ⊢
  refine h.trans (.setSlot fun hw => ?_)
  obtain ⟨h1, h2, _, _⟩ := hw
  exact ⟨h1, h2, fun _ => ⟨rfl, rfl⟩, fun _ => rfl⟩

theorem State.admitUnit_moves (s : State) (g : Seg) (r : Report) : Moves s (s.admitUnit g r) :=
  .setSlot fun _ => by simp [SlotRec.addEvent, SlotRec.whole]

theorem State.admitUnit_state (s : State) (g : Seg) (r : Report) : (s.admitUnit g r).slots[r.slot].state = .active := by
  simp [State.admitUnit, SlotRec.addEvent]

theorem State.refuse_moves (s : State) (g : Seg) (r : Report) : Moves s (s.refuse g r) :=
  .setSlot fun _ => by simp [SlotRec.addEvent, SlotRec.whole]

theorem State.newUnit_moves (s : State) (g : Seg) (r : Report) : Moves s (s.newUnit g r) := by
  unfold State.newUnit
  dsimp only
  generalize hu : (if s.slots[r.slot].state = .empty then s else s.swapOut r.slot) = u
  have h1 : Moves s u := by
    rw [← hu]
    split
    exacts [.refl, s.swapOut_moves _]
  split
  · exact h1.trans ((u.admitUnit_moves g r).trans (State.accept_moves g _ (u.admitUnit_state g r)))
  · exact h1.trans (u.refuse_moves g r)

theorem State.hearOn_slot (s : State) (g : Seg) (i : Slot) :
    (s.hearOn g i).slots = put s.slots i { s.slots[i] with lastSeg := some g } := by
  unfold State.hearOn
  dsimp only
  split <;> simp

theorem State.hearOn_moves {s : State} (g : Seg) {i : Slot} (h : s.slots[i].state ≠ .empty) : Moves s (s.hearOn g i) := by
  unfold State.hearOn
  dsimp only
  refine .trans (t := if s.slots[i].lastSeg = some g then s else s.dropRecords i) ?_ (.setSlot fun hw => ?_)
  · split
    exacts [.refl, s.dropRecords_moves i]
  · have hs : (if s.slots[i].lastSeg = some g then s else s.dropRecords i).slots = s.slots := by split <;> simp
    simp only [hs] at hw ⊢
    exact SlotRec.whole_of_unit hw h h rfl (fun _ => rfl) fun e => hw.2.2.2 (.inr e)

theorem State.knownUnit_moves {s : State} (g : Seg) {r : Report} (h : s.slots[r.slot].state ≠ .empty) :
    Moves s (s.knownUnit g r) := by
  have h1 := State.hearOn_moves g h
  have hs : (s.hearOn g r.slot).slots[r.slot] = { s.slots[r.slot] with lastSeg := some g } := by
    rw [State.hearOn_slot]; exact put_get_self _ _ _
  unfold State.knownUnit
  dsimp only
  split
  · rename_i ha
    split
    · exact h1.trans (.setSlot fun hw => SlotRec.whole_of_unit hw (by rw [hs]; exact h) (by rw [hs]; exact h) rfl id
        fun e => hw.2.2.2 (.inr e))
    · exact h1.trans (State.accept_moves g _ (by rw [hs]; exact ha))
  · rename_i ha
    refine h1.trans (.trans (.setSlot fun hw => ?_) (State.accept_moves g _ (by simp [SlotRec.addEvent])))
    exact SlotRec.whole_of_unit hw (by rw [hs]; exact h) (by simp [SlotRec.addEvent]) rfl id (by simp [SlotRec.addEvent])
  · exact h1.trans ((State.admitUnit_moves _ g r).trans (State.accept_moves g _ (State.admitUnit_state _ g r)))
  · exact h1.trans (.setSlot fun hw => SlotRec.whole_of_unit hw (by rw [hs]; exact h) (by rw [hs]; exact h) rfl id
      fun e => hw.2.2.2 (.inr e))
  · exact h1.trans ((State.dropRecords_moves _ _).trans ((State.clearFedBy_moves _ _).trans (State.refuse_moves _ g r)))

theorem State.handleReport_moves (s : State) (g : Seg) (r : Report) : Moves s (s.handleReport g r) := by
  unfold State.handleReport
  dsimp only
  split
  · split
    exacts [.refl, s.detach_moves _]
  · split
    · exact s.newUnit_moves g r
    · rename_i h
      exact State.knownUnit_moves g fun e => h (.inl e)

theorem State.loseSlot_moves {s : State} {i : Slot} (h : s.slots[i].state ≠ .empty) : Moves s (s.loseSlot i) := by
  refine (s.dropRecords_moves i).trans ((State.loseFedBy_moves _ i).trans (.setSlot fun hw => ?_))
  simp only [State.loseFedBy_slots, State.dropRecords_slots] at hw ⊢
  exact SlotRec.whole_of_unit hw h (by simp [SlotRec.addEvent]) rfl id (by simp [SlotRec.addEvent])

theorem State.handleMiss_moves (s : State) (g : Seg) (i : Slot) : Moves s (s.handleMiss g i) := by
  unfold State.handleMiss
  dsimp only
  split
  · exact .refl
  split
  · exact .refl
  · rename_i ha
    have h1 : Moves s (s.setSlot i { s.slots[i] with miss := s.slots[i].miss + 1 }) :=
      .setSlot fun hw => SlotRec.whole_of_unit hw (ha.trans_ne (by decide)) (ha.trans_ne (by decide)) rfl id
        fun e => absurd (ha.symm.trans e) (by decide)
    split
    · refine h1.trans (State.loseSlot_moves ?_)
      simp only [State.setSlot_slots, Fin.getElem_fin, put_get, if_true]
      exact ha.trans_ne (by decide)
    · exact h1
  · rename_i hr
    have h1 : Moves s (s.setSlot i { s.slots[i] with miss := s.slots[i].miss + 1 }) :=
      .setSlot fun hw => SlotRec.whole_of_unit hw (hr.trans_ne (by decide)) (hr.trans_ne (by decide)) rfl id
        fun e => hw.2.2.2 (.inr e)
    split
    · exact h1.trans (State.dropSlot_moves _ _)
    · exact h1
  · rename_i hl
    have h1 : Moves s (s.setSlot i { s.slots[i] with lost := s.slots[i].lost + 1 }) :=
      .setSlot fun hw => SlotRec.whole_of_unit hw (hl.trans_ne (by decide)) (hl.trans_ne (by decide)) rfl id
        fun e => absurd (hl.symm.trans e) (by decide)
    split
    · exact h1.trans (State.dropSlot_moves _ _)
    · exact h1

theorem State.loseSegment_moves (s : State) (g : Seg) : Moves s (s.loseSegment g) := by
  unfold State.loseSegment
  refine .fold (fun t i => ?_) _ s
  split
  · rename_i h
    exact State.loseSlot_moves (h.1.trans_ne (by decide))
  · exact .refl

theorem State.modSeg_moves (s : State) (g : Seg) (f : Segment → Segment) : Moves s (s.modSeg g f) :=
  .of_eq (s.modSeg_records g f)

theorem State.stopSegment_moves (s : State) (g : Seg) : Moves s (s.stopSegment g) :=
  (s.modSeg_moves g _).trans (State.loseSegment_moves _ g)

theorem State.afterPoll_moves (s : State) (g : Seg) : Moves s (s.afterPoll g) := by
  unfold State.afterPoll
  split
  exacts [.refl, s.stopSegment_moves g]

theorem State.pollMiss_moves (s : State) (g : Seg) (p : PollRec) (st : AnswerStatus) : Moves s (s.pollMiss g p st) :=
  (s.modSeg_moves g _).trans ((State.handleMiss_moves _ g _).trans (State.afterPoll_moves _ g))

theorem State.judge_moves (s : State) (g : Seg) (p : PollRec) (bytes : List Byte) : Moves s (s.judge g p bytes) := by
  unfold State.judge
  split
  · exact (s.modSeg_moves g _).trans (State.pollMiss_moves _ g p _)
  · split
    · exact (s.modSeg_moves g _).trans ((State.handleReport_moves _ g _).trans (State.afterPoll_moves _ g))
    · exact (s.modSeg_moves g _).trans (State.pollMiss_moves _ g p _)

theorem State.lineStuck_moves (s : State) (g : Seg) : Moves s (s.lineStuck g) := by
  refine .trans (t := s.stuckPoll g) ?_
    ((State.modSeg_moves _ g _).trans ((State.loseSegment_moves _ g).trans (State.afterPoll_moves _ g)))
  unfold State.stuckPoll
  split
  exacts [(s.modSeg_moves g _).trans (State.handleMiss_moves _ g _), .refl]

/-! ### Table writes -/

theorem parsePosCfg_lawful {bs : List Byte} {c : PosCfg} (h : parsePosCfg bs = .ok c) : c.lawful := by
  unfold parsePosCfg at h
  split at h
  · cases h
  · dsimp only at h
    split at h
    · rename_i ho
      cases h
      have ho' := ho
      simp only [PosCfg.ordered, Bool.and_eq_true, decide_eq_true_eq] at ho'
      obtain ⟨⟨h1, h2⟩, h3⟩ := ho'
      exact ⟨h1, h2, h3, by simp [clamp], by simp [clamp]⟩
    · cases h

theorem parseRule_canonical {i : RuleIx} {bs : List Byte} {e : RuleEntry} (h : parseRule i bs = .ok e) : e.canonical := by
  intro hv
  unfold parseRule at h
  split at h
  · cases h; rfl
  · dsimp only at h
    split at h
    · split at h
      · cases h
      split at h
      · cases h
      split at h
      · cases h
      · cases h; cases hv
    · cases h

/-- An owner whose answers move the records. -/
def OwnMoves (own : Nat → List Byte → State → Except Status State) : Prop :=
  ∀ i bs s s', own i bs s = .ok s' → Moves s s'

theorem ownNode_moves : OwnMoves ownNode := by
  intro i bs s s' h
  unfold ownNode at h
  dsimp only at h
  split at h
  · cases h
  split at h
  · cases h
  · cases h
    exact .one (Change.node (x := s.records) _ _ (Bool.eq_false_iff.mpr ‹_›))

theorem ownSeatmap_moves : OwnMoves ownSeatmap := by
  intro i bs s s' h
  unfold ownSeatmap at h
  dsimp only at h
  split at h
  · cases h
  rename_i e _
  split at h
  · cases h
  rename_i hd
  cases h
  generalize ht : (if s.seatmap[Fin.ofNat 24 i].valid = true then s.clearIfSeated s.seatmap[Fin.ofNat 24 i].pos else s) = t
  have hm : Moves s t := by
    rw [← ht]
    split
    exacts [s.clearIfSeated_moves _, .refl]
  have he : t.seatmap = s.seatmap := by
    rw [← ht]
    split
    · unfold State.clearIfSeated
      split <;> rfl
    · rfl
  refine hm.trans (.one (Change.seatmap (x := t.records) (Fin.ofNat 24 i) e ?_))
  show seatDuplicate t.seatmap _ e = false
  rw [he]
  exact Bool.eq_false_iff.mpr hd

theorem ownPoscfg_moves : OwnMoves ownPoscfg := by
  intro i bs s s' h
  unfold ownPoscfg at h
  dsimp only at h
  split at h
  · cases h
  rename_i c hc
  cases h
  have h1 : Moves s (({ s with poscfg := put s.poscfg (Fin.ofNat 16 i) c }).setPos (Fin.ofNat 16 i)
      s.positions[Fin.ofNat 16 i].reseed) :=
    .one (Change.poscfg (x := s.records) (Fin.ofNat 16 i) c (parsePosCfg_lawful hc))
  exact h1.trans (State.evalAt_moves _ _)

theorem ownRule_moves : OwnMoves ownRule := by
  intro i bs s s' h
  unfold ownRule at h
  dsimp only at h
  split at h
  · cases h
  rename_i hp
  split at h
  · cases h
  · cases h
    exact .one (Change.rule (x := s.records) _ _ (parseRule_canonical hp) (Bool.eq_false_iff.mpr ‹_›))

theorem ownProfile_moves : OwnMoves ownProfile := by
  intro i bs s s' h
  unfold ownProfile at h
  dsimp only at h
  split at h
  · cases h
  · rename_i e _
    rw [← Except.ok.inj h]
    have h1 : Moves s { s with profiles := put s.profiles (Fin.ofNat 4 i) e } := .of_eq rfl
    exact h1.trans (State.evalProfile_moves _ _)

theorem ownRing_moves (g : Seg) : OwnMoves (ownRing g) := by
  intro i bs s s' h
  unfold ownRing at h
  split at h
  · cases h
  · cases h
    exact s.modSeg_moves g _

theorem State.writeSegCfg_moves (s : State) (g : Seg) (c : SegCfg) : Moves s (s.writeSegCfg g c) := by
  unfold State.writeSegCfg
  dsimp only
  refine .trans ?_ (State.modSeg_moves _ g _)
  have h1 := s.modSeg_moves g fun x => x.storeCfg c
  split
  · exact h1.trans (State.modSeg_moves _ g _)
  split
  exacts [h1.trans (State.stopSegment_moves _ g), h1]

theorem ownSegcfg_moves : OwnMoves ownSegcfg := by
  intro i bs s s' h
  unfold ownSegcfg at h
  split at h
  · cases h
  · cases h
    exact s.writeSegCfg_moves _ _

theorem ownLocalcfg_moves : OwnMoves ownLocalcfg := by
  intro i bs s s' h
  unfold ownLocalcfg at h
  dsimp only at h
  split at h
  · cases h
  · rename_i c _
    cases h
    have h1 : Moves s { s with lsu := { s.lsu with cfg := c } } := .of_eq rfl
    have h2 := h1.trans (State.clearIfSeated_moves _ 0)
    split <;> split
    · exact h1
    · exact h2
    · exact h1.trans (State.clearIfSeated_moves _ 1)
    · exact h2.trans (State.clearIfSeated_moves _ 1)

theorem ownTiming_moves : OwnMoves ownTiming := by
  intro i bs s s' h
  unfold ownTiming at h
  split at h
  · cases h
  · cases h; exact .of_eq rfl

theorem ownPanelcfg_moves : OwnMoves ownPanelcfg := by
  intro i bs s s' h
  unfold ownPanelcfg at h
  split at h
  · cases h
  · cases h; exact .of_eq rfl

theorem ownProtect_moves : OwnMoves ownProtect := by
  intro i bs s s' h
  cases h
  exact .of_eq rfl

/-! ### Frames -/

theorem State.takeFrame_moves {own : State → State} (h : ∀ s, Moves s (own s)) (s : State) (kind tag : Byte) (fits : Bool) :
    Moves s (s.takeFrame kind tag fits own) := by
  unfold State.takeFrame
  dsimp only
  split
  · exact .refl
  split
  · exact .of_eq rfl
  split
  · exact .of_eq rfl
  split
  · exact .of_eq rfl
  · exact .trans (.of_eq rfl) (h s.rxHunt)

theorem State.takeWrite_moves {own : Nat → List Byte → State → Except Status State} (h : OwnMoves own) (s : State)
    (t : TableId) (tag index : Byte) (entry : List Byte) : Moves s (s.takeWrite t tag index entry own) := by
  refine State.takeFrame_moves (fun s => ?_) s _ _ _
  unfold State.writeTable
  dsimp only
  split
  · exact .of_eq rfl
  split
  · exact .of_eq rfl
  split
  · exact .of_eq rfl
  split
  · exact .of_eq rfl
  · rename_i ho
    exact (h _ _ _ _ ho).trans (.of_eq rfl)

theorem State.settle_moves {s t : State} (h : Moves s t) : Moves s t.settle := h.trans (.of_eq t.settle_records)

theorem execTblwrNode_moves (tag : Byte) (payload : List Byte) (s : State) :
    ∃ t, execTblwrNode tag payload s = .next t ∧ Moves s t := by
  refine ⟨_, rfl, State.settle_moves ?_⟩
  split
  · split
    · rename_i table _
      cases table
      · exact s.takeWrite_moves ownNode_moves ..
      · exact s.takeWrite_moves ownSeatmap_moves ..
      · exact s.takeWrite_moves ownPoscfg_moves ..
      · exact s.takeWrite_moves ownRule_moves ..
      · exact s.takeWrite_moves ownProfile_moves ..
      · exact s.takeWrite_moves (ownRing_moves .a) ..
      · exact s.takeWrite_moves (ownRing_moves .b) ..
      · exact s.takeWrite_moves ownSegcfg_moves ..
      · exact s.takeWrite_moves ownLocalcfg_moves ..
      · exact s.takeWrite_moves ownTiming_moves ..
      · exact s.takeWrite_moves ownPanelcfg_moves ..
      · exact s.takeWrite_moves ownProtect_moves ..
    · exact State.takeFrame_moves (own := fun s1 => s1.badTable.refuseTable tag Kind.tblwr _ _ .table)
        (fun _ => .of_eq rfl) s ..
  · exact State.takeFrame_moves (fun _ => .refl) s ..

end Sys2Proof.Machine
end

section
/-! SUPPORT. Every command moves the records by single changes. -/

namespace Sys2Proof.Machine

/-- What a command answers moves the records. -/
def StepMoves (s : State) (r : StepResult) : Prop := ∀ t, r = .next t → Moves s t

theorem StepMoves.next {s t : State} (h : Moves s t) : StepMoves s (.next t) := by
  rintro u ⟨⟩; exact h

theorem StepMoves.of_eq {s t : State} (h : t.records = s.records) : StepMoves s (.next t) := .next (.of_eq h)

theorem StepMoves.ite {s t u : State} {c : Prop} [Decidable c] (ht : Moves s t) (hu : Moves s u) :
    StepMoves s (.next (if c then t else u)) := by
  split
  exacts [.next ht, .next hu]

theorem StepMoves.frame {own : State → State} (h : ∀ s, Moves s (own s)) (s : State) (kind tag : Byte) (fits : Bool) :
    StepMoves s (.next (s.takeFrame kind tag fits own)) :=
  .next (State.takeFrame_moves h s kind tag fits)

/-! ### Resets and power -/

/-- The store that a hard reset loads keeps records of the store before, and gains none (R212). -/
theorem State.hardReset_moves (s : State) : Moves s s.hardReset := by
  have hs : ∀ st : Store, (∀ i : RuleIx, ∀ e ∈ st.rule[i], e ∈ s.cfs.store.rule[i]) →
      (∀ i : Fin 16, ∀ c ∈ st.poscfg[i], c ∈ s.cfs.store.poscfg[i]) →
        Moves s (State.boot st s.pending s.free) := fun st hr hc =>
    .tail (.single (Change.store (x := s.records) st.rule st.poscfg (fun i e h => .inl (hr i e h))
      fun i c h => .inl (hc i c h))) (Change.boot st _ _ rfl rfl)
  have htarget : Moves s (State.boot s.cfs.eraseTarget s.pending s.free) := by
    unfold Cfs.eraseTarget
    split
    · rename_i st _
      have hput : ∀ {α : Type} {n : Nat} (v : Vector (Option α) n) (i j : Fin n) (a : α),
          a ∈ (put v i none)[j] → a ∈ v[j] := by
        intro α n v i j a h
        by_cases e : j = i
        · subst e; rw [put_get_self] at h; cases h
        · rwa [put_get_ne _ _ e] at h
      cases st
      case rule k e => exact hs _ (fun i e h => hput _ _ i e h) fun _ _ h => h
      case poscfg k c => exact hs _ (fun _ _ h => h) fun i c h => hput _ _ i c h
      all_goals exact hs _ (fun _ _ h => h) fun _ _ h => h
    · exact hs _ (fun _ _ h => h) fun _ _ h => h
  have herase : ∀ r, Moves s (State.boot (s.cfs.store.eraseRegion r) s.pending s.free) := by
    intro r
    have hnone : ∀ {α : Type} {n : Nat} (i : Fin n) (a : α) {P : Prop},
        a ∈ (Vector.replicate n (none : Option α))[i] → P := by
      intro α n i a P h
      simp at h
    match r with
    | 0 => exact hs _ (fun _ _ h => h) fun _ _ h => h
    | 1 => exact hs _ (fun _ _ h => h) fun i c h => hnone i c h
    | 2 => exact hs _ (fun i e h => hnone i e h) fun _ _ h => h
    | 3 => exact hs _ (fun _ _ h => h) fun _ _ h => h
  unfold State.hardReset Cfs.interrupted
  split
  · exact hs _ (fun _ _ h => h) fun _ _ h => h
  · exact htarget
  · exact htarget
  · exact herase _
  · exact herase _
  · exact hs _ (fun _ _ h => h) fun _ _ h => h
  · exact hs _ (fun _ _ h => h) fun _ _ h => h

theorem State.softReset_moves (s : State) (ign door : Bool) : Moves s (s.softReset ign door) := by
  have h1 : (if s.pmg.power = .sleep then s.leaveSleep else s).records = s.records := by split <;> simp
  refine .trans (.of_eq h1) (.one ?_)
  unfold State.softReset
  rw [State.startBlocks_records]
  exact Change.softReset

theorem State.ignitionChange_moves (s : State) (on : Bool) : Moves s (s.ignitionChange on) := by
  unfold State.ignitionChange
  split
  · exact .refl
  · exact .after (State.evalAll_moves _) rfl
  · exact .after (State.evalAll_moves _) rfl
  · exact .after (State.evalAll_moves _) (State.returnToRun_records _)
  · exact .after (State.evalAll_moves _) (State.wake_records _ _)
  · exact .of_eq rfl

theorem State.takeVehicle_moves (s : State) (b : Byte) : Moves s (s.takeVehicle b) := by
  unfold State.takeVehicle
  dsimp only
  have h1 : Moves s (s.modPmg fun m => m.vehicle (b.getLsbD 0) (b.getLsbD 1)) := .of_eq rfl
  generalize (s.modPmg fun m => m.vehicle (b.getLsbD 0) (b.getLsbD 1)) = t at h1 ⊢
  have h2 := h1.trans (State.evalAll_moves _)
  split <;> split
  · exact h2.trans (.of_eq (State.modPmg_records _ _))
  · exact h1.trans (.of_eq (State.modPmg_records _ _))
  · exact h2
  · exact h1

theorem State.replySent_moves (s : State) (kind : Byte) (st : Status) (ign door : Bool) :
    Moves s (s.replySent kind st ign door) := by
  have h1 : Moves s s.freeHead := .of_eq rfl
  unfold State.replySent State.actSleepReq
  dsimp only
  split
  · exact h1.trans (State.softReset_moves _ ign door)
  split
  · split
    exacts [h1.trans (.of_eq (State.formWatch_records _)), h1]
  · exact h1

theorem State.sendDone_moves (s : State) (act : SendAction) (ign door : Bool) : Moves s (s.sendDone act ign door) := by
  unfold State.sendDone
  split
  · exact .refl
  · exact s.replySent_moves ..
  · exact s.modSeg_moves ..
  · exact .of_eq rfl

/-! ### The store -/

theorem State.stageEntry_moves (s : State) (tag table index : Byte) : Moves s (s.stageEntry tag table index) := by
  unfold State.stageEntry
  split
  · exact .of_eq rfl
  · rename_i t _
    split
    · exact .of_eq rfl
    split
    · exact .of_eq rfl
    · refine .one (Change.stage (x := s.records) (some (s.entryToStage t index.toNat)) ?_ ?_)
      · intro i e h
        cases t <;> cases h
        exact ⟨_, rfl⟩
      · intro i c h
        cases t <;> cases h
        exact ⟨_, rfl⟩

/-- A store whose rules and POSCFG entries are those of before, erased ones, or the staged one (R208, R210). -/
theorem Moves.store {s t : State} (h : t.records = { s.records with
      staging := t.cfs.staging, storedRules := t.cfs.store.rule, storedCfgs := t.cfs.store.poscfg })
    (hst : t.cfs.staging = s.cfs.staging ∨ t.cfs.staging = none)
    (hr : ∀ i : RuleIx, ∀ e ∈ t.cfs.store.rule[i],
      e ∈ s.cfs.store.rule[i] ∨ ∃ j, s.cfs.staging = some (.rule j e))
    (hc : ∀ i : Fin 16, ∀ c ∈ t.cfs.store.poscfg[i],
      c ∈ s.cfs.store.poscfg[i] ∨ ∃ j, s.cfs.staging = some (.poscfg j c)) : Moves s t := by
  have h1 := Relation.ReflTransGen.single (Change.store (x := s.records) _ _ hr hc)
  unfold Moves
  rw [h]
  rcases hst with e | e
  · rw [e]; exact h1
  · rw [e]
    exact h1.tail (Change.stage none (fun _ _ h => by cases h) fun _ _ h => by cases h)

theorem State.record_moves {s t : State} {st : Staged} {keep : Bool} (hs : s.cfs.staging = some st)
    (ht : t.records = { s.records with
      staging := t.cfs.staging, storedRules := t.cfs.store.rule, storedCfgs := t.cfs.store.poscfg })
    (hst : t.cfs.staging = s.cfs.staging ∨ t.cfs.staging = none)
    (hrec : t.cfs.store = s.cfs.store.record keep st) : Moves s t := by
  refine .store ht hst ?_ ?_
  · rw [hrec, hs]
    intro i e h
    cases st
    case rule k e' =>
      replace h : e ∈ (put s.cfs.store.rule k (if keep then some e' else none))[i] := h
      by_cases hi : i = k
      · subst hi
        rw [put_get_self] at h
        cases keep <;> cases h
        exact .inr ⟨_, rfl⟩
      · rw [put_get_ne _ _ hi] at h
        exact .inl h
    all_goals exact .inl h
  · rw [hrec, hs]
    intro i c h
    cases st
    case poscfg k c' =>
      replace h : c ∈ (put s.cfs.store.poscfg k (if keep then some c' else none))[i] := h
      by_cases hi : i = k
      · subst hi
        rw [put_get_self] at h
        cases keep <;> cases h
        exact .inr ⟨_, rfl⟩
      · rw [put_get_ne _ _ hi] at h
        exact .inl h
    all_goals exact .inl h

theorem execCommitComplete_moves (same : Bool) (s : State) : StepMoves s (execCommitComplete same s) := by
  unfold execCommitComplete
  refine .next ?_
  split
  · rename_i st _ hst
    split
    · refine .trans ?_ (.of_eq (State.fillReserved_records _ _ _))
      exact State.record_moves hst rfl (.inr rfl) rfl
    · refine .trans ?_ (.of_eq (State.fillReserved_records _ _ _))
      exact State.record_moves hst rfl (.inl rfl) rfl
  · exact .refl

theorem State.cancelCommit_moves (s : State) : Moves s s.cancelCommit := by
  unfold State.cancelCommit
  refine .trans ?_ (.of_eq (State.fillReserved_records _ _ _))
  cases hst : s.cfs.staging with
  | none =>
    refine .of_eq ?_
    have ht : s.cfs.eraseTarget = s.cfs.store := by
      unfold Cfs.eraseTarget
      rw [hst]
    unfold State.modCfs
    simp only [ht]
    rfl
  | some st =>
    refine State.record_moves hst rfl (.inl rfl) (keep := false) ?_
    show s.cfs.eraseTarget = _
    unfold Cfs.eraseTarget
    rw [hst]

theorem execEraseComplete_moves (s : State) : StepMoves s (execEraseComplete s) := by
  unfold execEraseComplete
  refine .next ?_
  split
  · rename_i r _
    refine .trans ?_ (.of_eq (State.fillReserved_records _ _ _))
    have hnone : ∀ {α : Type} {n : Nat} (i : Fin n) (a : α) {P : Prop},
        a ∈ (Vector.replicate n (none : Option α))[i] → P := by
      intro α n i a P h
      simp at h
    match r with
    | 0 => exact .of_eq rfl
    | 1 => exact .store rfl (.inl rfl) (fun _ _ h => .inl h) fun i c h => hnone i c h
    | 2 => exact .store rfl (.inl rfl) (fun i e h => hnone i e h) fun _ _ h => .inl h
    | 3 => exact .of_eq rfl
  · exact .refl

/-! ### Every command -/

theorem exec_moves (c : Instr) (s : State) : StepMoves s (exec c s) := by
  cases c
  case hardReset => exact .next s.hardReset_moves
  case loadComplete => exact .ite (.of_eq (State.startBlocks_records _)) .refl
  case ignitionChange on => exact .ite .refl (State.settle_moves (s.ignitionChange_moves on))
  case doorChange ajar =>
    unfold exec execDoorChange
    refine .ite .refl ?_
    split
    · exact .refl
    · exact .of_eq rfl
    · exact .of_eq rfl
    · split
      exacts [.of_eq (State.wake_records _ _), .of_eq rfl]
  case buckleWake => exact .ite (.of_eq (State.wake_records _ _)) .refl
  case trunkWake => exact .ite (.of_eq (State.wake_records _ _)) .refl
  case rxHuntResume => exact .ite (.of_eq rfl) .refl
  case frameGapAbandon => exact .ite (.of_eq rfl) .refl
  case lengthAbandon => exact .ite (.of_eq rfl) .refl
  case trunkCheckFail => exact .ite (.of_eq rfl) .refl
  case unknownKind =>
    unfold exec execUnknownKind
    refine .ite ?_ .refl
    dsimp only
    split <;> exact .of_eq rfl
  case vehstat payload =>
    unfold exec execVehstat
    refine .ite .refl ?_
    split
    · exact .of_eq rfl
    split
    · rename_i b
      exact State.settle_moves (.after (State.takeVehicle_moves _ b) rfl)
    · exact .of_eq rfl
  case tblwrNode tag payload =>
    obtain ⟨t, h, hm⟩ := execTblwrNode_moves tag payload s
    intro u hu
    cases h.symm.trans hu
    exact hm
  case tblwrSeatmap => exact .next (State.settle_moves (s.takeWrite_moves ownSeatmap_moves ..))
  case tblwrPoscfg => exact .next (State.settle_moves (s.takeWrite_moves ownPoscfg_moves ..))
  case tblwrRule => exact .next (s.takeWrite_moves ownRule_moves ..)
  case tblwrProfile => exact .next (State.settle_moves (s.takeWrite_moves ownProfile_moves ..))
  case tblwrRingA => exact .next (s.takeWrite_moves (ownRing_moves .a) ..)
  case tblwrRingB => exact .next (s.takeWrite_moves (ownRing_moves .b) ..)
  case tblwrSegcfg => exact .next (State.settle_moves (s.takeWrite_moves ownSegcfg_moves ..))
  case tblwrLocalcfg => exact .next (State.settle_moves (s.takeWrite_moves ownLocalcfg_moves ..))
  case tblwrTiming => exact .next (s.takeWrite_moves ownTiming_moves ..)
  case tblwrPanelcfg => exact .next (s.takeWrite_moves ownPanelcfg_moves ..)
  case tblwrProtect => exact .next (s.takeWrite_moves ownProtect_moves ..)
  case tblrd =>
    refine .frame (fun s => ?_) s _ _ _
    unfold State.readTable
    split
    · exact .of_eq rfl
    · split <;> exact .of_eq rfl
  case posqry =>
    refine .frame (fun s => ?_) s _ _ _
    split <;> exact .of_eq rfl
  case nodereq =>
    refine .frame (fun s => ?_) s _ _ _
    unfold State.request
    split
    · exact .of_eq rfl
    · dsimp only
      split
      · split
        exacts [.of_eq rfl, .of_eq (State.modSeg_records ..)]
      · exact .of_eq rfl
  case stage => exact .frame (fun s => s.stageEntry_moves ..) s _ _ _
  case commit =>
    refine .frame (fun s => ?_) s _ _ _
    split <;> exact .of_eq rfl
  case nvcancel =>
    refine .frame (fun s => ?_) s _ _ _
    split
    · exact .one (Change.stage (x := s.records) none (fun _ _ h => by cases h) fun _ _ h => by cases h)
    · exact s.cancelCommit_moves.trans (.of_eq rfl)
    · exact .of_eq rfl
  case nverase =>
    refine .frame (fun s => ?_) s _ _ _
    split <;> exact .of_eq rfl
  case protload =>
    refine .frame (fun s => ?_) s _ _ _
    split <;> exact .of_eq rfl
  case callock =>
    refine .frame (fun s => ?_) s _ _ _
    split
    · exact .of_eq rfl
    · split <;> exact .of_eq rfl
  case sleepreq =>
    refine .frame (fun s => ?_) s _ _ _
    split <;> exact .of_eq rfl
  case alertack =>
    refine .frame (fun s => ?_) s _ _ _
    split <;> exact .of_eq rfl
  case chimetst =>
    refine .frame (fun s => ?_) s _ _ _
    exact .of_eq rfl
  case paneltst =>
    refine .frame (fun s => ?_) s _ _ _
    exact .of_eq rfl
  case clrflag tag payload =>
    refine .frame (fun s => ?_) s _ _ _
    split
    · rename_i t code h
      have ht : t.records = s.records := by
        unfold State.clearFlags at h
        dsimp only at h
        split at h <;> cases h <;> rfl
      exact .of_eq ht
    · exact .of_eq rfl
  case identq =>
    refine .frame (fun s => ?_) s _ _ _
    exact .of_eq rfl
  case softrst =>
    refine .frame (fun s => ?_) s _ _ _
    exact .of_eq rfl
  case sendReply =>
    refine .next ?_
    split <;> exact .of_eq rfl
  case sendAlert =>
    refine .next ?_
    split <;> exact .of_eq rfl
  case sendNodeans =>
    refine .next ?_
    split <;> exact .of_eq rfl
  case sendWakenote =>
    refine .next ?_
    split <;> exact .of_eq rfl
  case sendPosnote =>
    refine .next ?_
    split
    · rename_i p _
      exact .trans (.of_eq (State.startSend_records s ..)) (.setPos (p := p) (.noticed false) rfl)
    · exact .refl
  case sendSeatnote =>
    refine .next ?_
    split
    · exact .trans (.of_eq (State.startSend_records s ..)) (.setSlot fun h => h)
    · exact .refl
  case sendMirror =>
    refine .next ?_
    split <;> exact .of_eq rfl
  case sendComplete ign door =>
    refine .next ?_
    split
    · rename_i x _
      exact State.settle_moves (.after (State.sendDone_moves _ x.action ign door) rfl)
    · exact .refl
  case spacingExpiry g => exact .next (s.modSeg_moves g _)
  case pollStart g => exact .ite (.of_eq (State.pollStart_records s g)) .refl
  case pollSent g => exact .next (s.modSeg_moves g _)
  case segmentFrame g bytes =>
    unfold exec execSegmentFrame
    refine .ite ?_ .refl
    have h1 := s.modSeg_moves g Segment.endReception
    dsimp only
    split
    exacts [State.settle_moves (h1.trans (State.judge_moves _ g _ bytes)), h1.trans (State.modSeg_moves _ g _)]
  case segmentFrameCut g =>
    unfold exec execSegmentFrameCut
    refine .ite ?_ .refl
    have h1 := s.modSeg_moves g Segment.endReception
    dsimp only
    split
    · exact State.settle_moves (h1.trans ((State.modSeg_moves _ g _).trans (State.pollMiss_moves _ g _ _)))
    · exact h1.trans (State.modSeg_moves _ g _)
  case replyWindowExpiry g =>
    refine .next ?_
    split
    · split
      exacts [State.settle_moves ((s.modSeg_moves g _).trans (State.pollMiss_moves _ g _ _)), .refl]
    · exact .refl
  case lineStuckDetect g => exact .ite (State.settle_moves (s.lineStuck_moves g)) .refl
  case probeExpiry g _ => exact .ite (s.modSeg_moves g _) .refl
  case scanIntervalExpiry => exact .ite (.after (.of_eq (State.requestScan_records _)) rfl) .refl
  case conversionComplete n a b => exact .ite .refl (State.settle_moves (s.conversion_moves n a b))
  case reminderTick =>
    refine .ite (State.settle_moves ?_) .refl
    exact .after (State.tickAll_moves _) rfl
  case alertPatternTimer => exact .of_eq rfl
  case chimeTestQuarter => exact .of_eq rfl
  case chimeTestEnd => exact .ite (.of_eq rfl) .refl
  case scanFrameStart => exact .of_eq (State.whileScanning_records s _)
  case commonSlot => exact .of_eq (State.whileScanning_records s _)
  case dutyEnd => exact .of_eq (State.whileScanning_records s _)
  case flashPhase => exact .of_eq (State.whileScanning_records s _)
  case panelTestExpiry => exact .of_eq rfl
  case rundownExpiry => exact .ite (.of_eq (State.formWatch_records _)) .refl
  case watchIntervalExpiry => exact .ite (.of_eq s.watchInterval_records) .refl
  case dwellTick =>
    unfold exec execDwellTick
    refine .ite ?_ .refl
    dsimp only
    split <;> exact .of_eq rfl
  case alertRepeatExpiry => exact .ite (.of_eq rfl) .refl
  case watchElapsedTick =>
    unfold exec execWatchElapsedTick
    refine .ite ?_ .refl
    dsimp only
    split
    exacts [.of_eq (State.enterSleep_records _), .of_eq rfl]
  case commitComplete same => exact execCommitComplete_moves same s
  case eraseComplete => exact execEraseComplete_moves s
  case lockComplete =>
    refine .next ?_
    split
    exacts [.trans (.of_eq rfl) (.of_eq (State.fillReserved_records _ _ _)), .refl]
  case frameSync => exact .ite (.of_eq rfl) .refl
  case segmentFrameBegin g => exact .ite (s.modSeg_moves g _) .refl
  case segmentLineIdle g => exact .ite (s.modSeg_moves g _) .refl

/-- Every step moves the records by single changes. -/
theorem step_moves {s t : State} (h : step s = .next t) : Moves s t := by
  unfold step at h
  split at h
  · cases h; exact .refl
  · exact .after (exec_moves _ _ t h) rfl

end Sys2Proof.Machine
end

section
/-! SUPPORT. What OCE's handling of a block makes of a record, field by field, and what it keeps of the laws. -/

namespace Sys2Proof.Machine

/-! ### Confirmation and classification change class, pending, armed map and notice alone -/

theorem Position.confirm_shape (cfg : PosCfg) (c : Cls) (r : Position) :
    r.confirm cfg c = { r with
      cls := (r.confirm cfg c).cls, pending := (r.confirm cfg c).pending, armed := (r.confirm cfg c).armed
      owed := (r.confirm cfg c).owed } := by
  unfold Position.confirm
  dsimp only
  split
  · rfl
  · split <;> rfl

theorem Position.classify_shape (cfg : PosCfg) (rules : Rules) (p : Pos) (r : Position) :
    r.classify cfg rules p = { r with
      cls := (r.classify cfg rules p).cls, pending := (r.classify cfg rules p).pending
      armed := (r.classify cfg rules p).armed, owed := (r.classify cfg rules p).owed } :=
  Position.confirm_shape ..

section
variable (cfg : PosCfg) (rules : Rules) (p : Pos) (r : Position)
@[simp] theorem Position.classify_presence : (r.classify cfg rules p).presence = r.presence := by rw [classify_shape]
@[simp] theorem Position.classify_source : (r.classify cfg rules p).source = r.source := by rw [classify_shape]
@[simp] theorem Position.classify_load : (r.classify cfg rules p).load = r.load := by rw [classify_shape]
@[simp] theorem Position.classify_band : (r.classify cfg rules p).band = r.band := by rw [classify_shape]
@[simp] theorem Position.classify_footprint : (r.classify cfg rules p).footprint = r.footprint := by
  rw [classify_shape]
@[simp] theorem Position.classify_buckle : (r.classify cfg rules p).buckle = r.buckle := by rw [classify_shape]
@[simp] theorem Position.classify_candidate : (r.classify cfg rules p).candidate = r.candidate := by
  rw [classify_shape]
@[simp] theorem Position.classify_anchorA : (r.classify cfg rules p).anchorA = r.anchorA := by rw [classify_shape]
@[simp] theorem Position.classify_anchorB : (r.classify cfg rules p).anchorB = r.anchorB := by rw [classify_shape]
@[simp] theorem Position.classify_tag : (r.classify cfg rules p).tag = r.tag := by rw [classify_shape]
@[simp] theorem Position.classify_seedDue : (r.classify cfg rules p).seedDue = r.seedDue := by rw [classify_shape]
@[simp] theorem Position.classify_rem : (r.classify cfg rules p).rem = r.rem := by rw [classify_shape]
end

/-! ### One block, by presence and supply (R6 to R9) -/

section
variable {cfg : PosCfg} {rules : Rules} {p : Pos} {src : Source} {b : Block} {r : Position}

/-- The record that a block seeds out of NO_SEAT, before its evaluation (R6). -/
def Position.seated (cfg : PosCfg) (src : Source) (b : Block) (r : Position) : Position :=
  Position.arithmetic cfg b true
    { r with presence := .live, source := some src, cls := .undetermined, buckle := b.buckle, candidate := none,
             seedDue := false, owed := true }

/-- The record that a block feeds elsewhere, before its evaluation (R8, R9). -/
def Position.fed (cfg : PosCfg) (b : Block) (r : Position) : Position :=
  Position.arithmetic cfg b r.seedDue
    { r.debounceBuckle b.buckle with
      presence := .live, owed := r.owed || r.presence ≠ .live || (r.debounceBuckle b.buckle).buckle ≠ r.buckle }

theorem Position.takeBlock_seated (h : r.presence = .noSeat) (hb : b.supplyLow = false) :
    r.takeBlock cfg rules p src b = (r.seated cfg src b).classify cfg rules p := by
  unfold Position.takeBlock
  rw [h, hb]
  rfl

theorem Position.takeBlock_seated_low (h : r.presence = .noSeat) (hb : b.supplyLow = true) :
    r.takeBlock cfg rules p src b =
      { r with presence := .held, source := some src, buckle := b.buckle, candidate := none, seedDue := true,
               owed := true } := by
  unfold Position.takeBlock
  rw [h, hb]

theorem Position.takeBlock_fed (h : r.presence ≠ .noSeat) (hb : b.supplyLow = false) :
    r.takeBlock cfg rules p src b = (r.fed cfg b).classify cfg rules p := by
  unfold Position.takeBlock Position.fed
  rw [hb]
  cases hp : r.presence
  case noSeat => exact absurd hp h
  all_goals rfl

theorem Position.takeBlock_held (h : r.presence ≠ .noSeat) (hb : b.supplyLow = true) :
    r.takeBlock cfg rules p src b =
      { r.debounceBuckle b.buckle with
        presence := .held, owed := r.owed || r.presence ≠ .held || (r.debounceBuckle b.buckle).buckle ≠ r.buckle } := by
  unfold Position.takeBlock
  rw [hb]
  cases hp : r.presence
  case noSeat => exact absurd hp h
  all_goals rfl

/-- The four handlings of a block. -/
theorem Position.takeBlock_cases {P : Position → Prop}
    (h1 : r.presence = .noSeat → P ((r.seated cfg src b).classify cfg rules p))
    (h2 : r.presence = .noSeat →
      P { r with presence := .held, source := some src, buckle := b.buckle, candidate := none, seedDue := true,
                 owed := true })
    (h3 : r.presence ≠ .noSeat → P ((r.fed cfg b).classify cfg rules p))
    (h4 : r.presence ≠ .noSeat →
      P { r.debounceBuckle b.buckle with
          presence := .held
          owed := r.owed || r.presence ≠ .held || (r.debounceBuckle b.buckle).buckle ≠ r.buckle }) :
    P (r.takeBlock cfg rules p src b) := by
  by_cases h : r.presence = .noSeat <;> cases hb : b.supplyLow
  · rw [Position.takeBlock_seated h hb]; exact h1 h
  · rw [Position.takeBlock_seated_low h hb]; exact h2 h
  · rw [Position.takeBlock_fed h hb]; exact h3 h
  · rw [Position.takeBlock_held h hb]; exact h4 h

/-- A block leaves its position LIVE or HELD, with a source (R6). -/
theorem Position.takeBlock_whole (h : r.whole) : (r.takeBlock cfg rules p src b).whole := by
  have key : ∀ n : Position, n.presence = .live ∨ n.presence = .held → n.source ≠ none → n.whole := by
    intro n hn hs
    have h1 : n.presence ≠ .noSeat := by rcases hn with e | e <;> rw [e] <;> decide
    have h2 : n.presence ≠ .sourceLost := by rcases hn with e | e <;> rw [e] <;> decide
    exact ⟨iff_of_false h1 hs, fun e => absurd e h1, fun e => (e.elim h1 h2).elim⟩
  have hs : r.presence ≠ .noSeat → r.source ≠ none := fun hp e => hp (h.1.mpr e)
  refine Position.takeBlock_cases (fun _ => key _ (.inl ?_) ?_) (fun _ => key _ (.inr rfl) ?_)
    (fun hp => key _ (.inl ?_) ?_) (fun hp => key _ (.inr rfl) ?_)
  · rw [Position.classify_presence]; rfl
  · rw [Position.classify_source]; simp [Position.seated, Position.arithmetic]
  · simp
  · rw [Position.classify_presence]; rfl
  · rw [Position.classify_source]; exact hs hp
  · exact hs hp

end

/-! ### The range of F and of the footprint (R2, R31) -/

theorem correctedCells_length (cfg : PosCfg) (cells : Vector Count 8) : (correctedCells cfg cells).length = 8 := by
  simp [correctedCells]

theorem footprintOf_le (cfg : PosCfg) (cells : Vector Count 8) : footprintOf cfg cells ≤ 8 :=
  (List.countP_le_length).trans_eq (correctedCells_length cfg cells)

theorem loadOf_le {cfg : PosCfg} (h : cfg.lawful) (cells : Vector Count 8) : loadOf cfg cells ≤ 16240 := by
  have hs : (correctedCells cfg cells).sum ≤ 8 * 1023 := by
    have := List.sum_le_card_nsmul (correctedCells cfg cells) 1023 (by
      intro x hx
      obtain ⟨i, _, rfl⟩ := List.mem_map.mp hx
      have := cells[i].isLt
      unfold correct
      split <;> omega)
    rwa [correctedCells_length, smul_eq_mul] at this
  obtain ⟨_, _, _, _, hg⟩ := h
  have := Nat.mul_le_mul hs hg
  unfold loadOf
  omega

/-- The filter step ends at or below the greater of F and L (R31). -/
theorem filterStep_le {k f l n : Nat} (hf : f ≤ n) (hl : l ≤ n) : filterStep k f l ≤ n := by
  have hk : (0 : Int) < 2 ^ k := by positivity
  unfold filterStep
  rw [Int.fdiv_eq_ediv_of_nonneg _ hk.le]
  rcases le_total (f : Int) l with h | h
  · have := Int.ediv_le_self (2 ^ k) (show (0 : Int) ≤ l - f by omega)
    omega
  · have := Int.ediv_nonpos_of_nonpos_of_neg (show (l : Int) - f ≤ 0 by omega) hk
    omega

/-- F and footprint in their ranges (R2, R31). -/
def Position.ranged (r : Position) : Prop := r.load ≤ 16240 ∧ r.footprint ≤ 8

theorem Position.arithmetic_ranged {cfg : PosCfg} (hc : cfg.lawful) {b : Block} {seed : Bool} {r : Position}
    (h : r.ranged) : (r.arithmetic cfg b seed).ranged := by
  refine ⟨?_, footprintOf_le cfg b.cells⟩
  have hl := loadOf_le hc b.cells
  cases seed
  · exact filterStep_le h.1 hl
  · exact hl

theorem Position.classify_ranged {cfg : PosCfg} {rules : Rules} {p : Pos} {r : Position} (h : r.ranged) :
    (r.classify cfg rules p).ranged := by
  unfold Position.ranged
  rwa [Position.classify_load, Position.classify_footprint]

theorem Position.takeBlock_ranged {cfg : PosCfg} (hc : cfg.lawful) {rules : Rules} {p : Pos} {src : Source} {b : Block}
    {r : Position} (h : r.ranged) : (r.takeBlock cfg rules p src b).ranged :=
  Position.takeBlock_cases (fun _ => Position.classify_ranged (Position.arithmetic_ranged hc h)) (fun _ => h)
    (fun _ => Position.classify_ranged (Position.arithmetic_ranged hc h)) (fun _ => h)

/-! ### Pending counts (R64) -/

/-- A pending count from 1 to one less than its candidate's required count (R64). -/
def pendingOk (cfg : PosCfg) (o : Option Pending) : Prop := ∀ q ∈ o, 1 ≤ q.count ∧ q.count < requiredCount cfg q.cls

theorem pendingOk_none (cfg : PosCfg) : pendingOk cfg none := fun _ h => by cases h

theorem nextCount_pos (o : Option Pending) (c : Cls) : 1 ≤ nextCount o c := by
  unfold nextCount
  split
  · split <;> omega
  · exact le_rfl

theorem Position.confirm_pendingOk (cfg : PosCfg) (c : Cls) (r : Position) : pendingOk cfg (r.confirm cfg c).pending := by
  unfold Position.confirm
  dsimp only
  split
  · exact pendingOk_none cfg
  split
  · exact pendingOk_none cfg
  · rename_i hn
    rintro q ⟨⟩
    exact ⟨nextCount_pos _ _, Nat.lt_of_not_le hn⟩

theorem Position.takeBlock_pendingOk {cfg : PosCfg} {rules : Rules} {p : Pos} {src : Source} {b : Block} {r : Position}
    (h : pendingOk cfg r.pending) : pendingOk cfg (r.takeBlock cfg rules p src b).pending :=
  Position.takeBlock_cases (P := fun n => pendingOk cfg n.pending) (fun _ => Position.confirm_pendingOk _ _ _) (fun _ => h)
    (fun _ => Position.confirm_pendingOk _ _ _) (fun _ => h)

/-! ### Armed maps (R53, R55, R57) -/

/-- Only valid ARM rules are armed, with at most their own windows left (R57). -/
def armedOk (rules : Rules) (armed : Vector Nat 24) : Prop :=
  ∀ i : RuleIx, armed[i] ≠ 0 → rules[i].valid ∧ rules[i].outcome = none ∧ armed[i] ≤ rules[i].window

theorem armedOk_empty (rules : Rules) : armedOk rules (Vector.replicate 24 0) := fun i h => absurd (by simp) h

/-- A noted rule is a valid ARM rule (R54). -/
theorem scanRules_noted {rules : Rules} {snap : Vector Nat 24} {p : Pos} {r : Position} {is : List RuleIx} {i : RuleIx}
    (h : i ∈ (scanRules rules snap p r is).1) : rules[i].valid ∧ rules[i].outcome = none := by
  induction is with
  | nil => cases h
  | cons j js ih =>
    unfold scanRules at h
    split at h
    · rename_i hm
      split at h
      · cases h
      · rename_i ho
        rcases List.mem_cons.mp h with rfl | h
        · refine ⟨?_, ho⟩
          have he : eligible rules snap p i = true := (Bool.and_eq_true_iff.mp hm).1
          exact (Bool.and_eq_true_iff.mp (Bool.and_eq_true_iff.mp he).1).1
        · exact ih h
    · exact ih h

theorem armedAfter_ok {rules : Rules} {snap : Vector Nat 24} (h : armedOk rules snap) (p : Pos) (r : Position) :
    armedOk rules (armedAfter rules snap (scanRules rules snap p r (List.finRange 24))) := by
  intro i hi
  have he : (armedAfter rules snap (scanRules rules snap p r (List.finRange 24)))[i] =
      if i ∈ (scanRules rules snap p r (List.finRange 24)).1 ∨ (armedIn snap i ∧
        i ∈ (matchingRules (scanRules rules snap p r (List.finRange 24))).flatMap (ancestors rules)) then
        rules[i].window else snap[i] - 1 := by simp [armedAfter]
  rw [he] at hi ⊢
  split at hi
  · rename_i hn
    rw [if_pos hn]
    rcases hn with hn | ⟨ha, _⟩
    · exact ⟨(scanRules_noted hn).1, (scanRules_noted hn).2, le_rfl⟩
    · obtain ⟨h1, h2, _⟩ := h i (by simpa [armedIn] using ha)
      exact ⟨h1, h2, le_rfl⟩
  · rename_i hn
    rw [if_neg hn]
    obtain ⟨h1, h2, h3⟩ := h i (by omega)
    exact ⟨h1, h2, by omega⟩

theorem Position.classify_armedOk {cfg : PosCfg} {rules : Rules} {p : Pos} {r : Position} (h : armedOk rules r.armed) :
    armedOk rules (r.classify cfg rules p).armed := by
  have ha := armedAfter_ok h p r
  unfold Position.classify Position.confirm
  dsimp only
  split
  · exact ha
  split
  · split
    exacts [armedOk_empty rules, ha]
  · exact ha

theorem Position.takeBlock_armedOk {cfg : PosCfg} {rules : Rules} {p : Pos} {src : Source} {b : Block} {r : Position}
    (h : armedOk rules r.armed) : armedOk rules (r.takeBlock cfg rules p src b).armed :=
  Position.takeBlock_cases (P := fun n => armedOk rules n.armed) (fun _ => Position.classify_armedOk h) (fun _ => h)
    (fun _ => Position.classify_armedOk h) (fun _ => h)

end Sys2Proof.Machine
end

section
/-! SUPPORT. Single changes keep the laws of tables and records; every step keeps them, and reset meets them. -/

namespace Sys2Proof.Machine

/-! ### Tables without duplicates (R18, R110) -/

theorem seatsUnique_put {t : Vector SeatMapEntry 24} {i : Fin 24} {e : SeatMapEntry} (h : seatsUnique t)
    (hd : seatDuplicate t i e = false) : seatsUnique (put t i e) := by
  have hi : ∀ j : Fin 24, j ≠ i → e.valid → t[j].valid →
      ¬(t[j].slot = e.slot ∧ t[j].seat = e.seat) ∧ t[j].pos ≠ e.pos := by
    intro j hj he hv
    simp only [seatDuplicate, he, Bool.true_and, List.any_eq_false, Bool.and_eq_true, Bool.or_eq_true,
      decide_eq_true_eq, not_and, not_or] at hd
    obtain ⟨h1, h2⟩ := hd j (List.mem_finRange j) ⟨hj, hv⟩
    exact ⟨fun ⟨a, b⟩ => h1 a b, h2⟩
  intro j k hj hk hjk
  by_cases h1 : j = i
  · subst h1
    have h2 : k ≠ j := Ne.symm hjk
    rw [put_get_self] at hj ⊢
    rw [put_get_ne _ _ h2] at hk ⊢
    obtain ⟨a, b⟩ := hi k h2 hj hk
    exact ⟨fun ⟨x, y⟩ => a ⟨x.symm, y.symm⟩, b.symm⟩
  · rw [put_get_ne _ _ h1] at hj ⊢
    by_cases h2 : k = i
    · subst h2
      rw [put_get_self] at hk ⊢
      exact hi j h1 hk hj
    · rw [put_get_ne _ _ h2] at hk ⊢
      exact h j k hj hk hjk

theorem serialsUnique_put {t : Vector NodeEntry 16} {i : Fin 16} {e : NodeEntry} (h : serialsUnique t)
    (hd : nodeDuplicate t i e = false) : serialsUnique (put t i e) := by
  have hi : ∀ j : Fin 16, j ≠ i → e.valid → t[j].valid → t[j].serial ≠ e.serial := by
    intro j hj he hv
    simp only [nodeDuplicate, he, Bool.true_and, List.any_eq_false, Bool.and_eq_true, decide_eq_true_eq, not_and] at hd
    exact hd j (List.mem_finRange j) ⟨hj, hv⟩
  intro j k hj hk hjk
  by_cases h1 : j = i
  · subst h1
    have h2 : k ≠ j := Ne.symm hjk
    rw [put_get_self] at hj ⊢
    rw [put_get_ne _ _ h2] at hk ⊢
    exact (hi k h2 hj hk).symm
  · rw [put_get_ne _ _ h1] at hj ⊢
    by_cases h2 : k = i
    · subst h2
      rw [put_get_self] at hk ⊢
      exact hi j h1 hk hj
    · rw [put_get_ne _ _ h2] at hk ⊢
      exact h j k hj hk hjk

theorem Store.loadSeatmap_unique (st : Store) : seatsUnique st.loadSeatmap :=
  loadKept_induct seatsUnique (fun i j hi => by simp [SeatMapEntry.invalid] at hi)
    fun _ _ _ h _ _ hc => seatsUnique_put h hc

theorem Store.loadNode_unique (st : Store) : serialsUnique st.loadNode :=
  loadKept_induct serialsUnique (fun i j hi => by simp [NodeEntry.invalid] at hi)
    fun _ _ _ h _ _ hc => serialsUnique_put h hc

/-! ### Chains (R49) -/

/-- Every chain of a valid rule holds at most 4 rules (R49). -/
def chainsShort (t : Rules) : Prop := ∀ i : RuleIx, t[i].valid → (chainOf t 24 i).length ≤ 4

theorem mem_chainOf_self (t : Rules) (n : Nat) (j : RuleIx) : j ∈ chainOf t n j := by
  cases n
  · exact List.mem_singleton_self j
  · unfold chainOf
    split <;> simp

/-- A chain that does not pass through a rule does not see that rule's entry. -/
theorem chainOf_put_of_notMem {t : Rules} {i : RuleIx} {e : RuleEntry} {n : Nat} {j : RuleIx}
    (h : i ∉ chainOf (put t i e) n j) : chainOf (put t i e) n j = chainOf t n j := by
  induction n generalizing j with
  | zero => rfl
  | succ n ih =>
    have hj : j ≠ i := by rintro rfl; exact h (mem_chainOf_self ..)
    unfold chainOf at h ⊢
    rw [put_get_ne _ _ hj] at h ⊢
    cases hp : t[j].pred with
    | none => rfl
    | some k =>
      rw [hp] at h
      dsimp only at h ⊢
      rw [ih fun hk => h (List.mem_cons_of_mem _ hk)]

/-- An entry without a predecessor lengthens no chain. -/
theorem chainOf_put_length_le {t : Rules} {i : RuleIx} {e : RuleEntry} (he : e.pred = none) (n : Nat) (j : RuleIx) :
    (chainOf (put t i e) n j).length ≤ (chainOf t n j).length := by
  induction n generalizing j with
  | zero => exact le_rfl
  | succ n ih =>
    by_cases hj : j = i
    · subst hj
      have h1 : (chainOf (put t j e) (n + 1) j) = [j] := by
        unfold chainOf
        rw [put_get_self, he]
      rw [h1]
      exact List.length_pos_of_mem (mem_chainOf_self ..)
    · unfold chainOf
      rw [put_get_ne _ _ hj]
      cases t[j].pred with
      | none => exact le_rfl
      | some k => exact Nat.succ_le_succ (ih k)

theorem chainsShort_put {t : Rules} {i : RuleIx} {e : RuleEntry} (h : chainsShort t) (hc : e.canonical)
    (hd : chainTooLong t i e = false) : chainsShort (put t i e) := by
  intro j hj
  by_cases he : e.valid
  · by_cases hm : i ∈ chainOf (put t i e) 24 j
    · simp only [chainTooLong, he, Bool.true_and, List.any_eq_false, Bool.and_eq_true, decide_eq_true_eq, not_and,
        not_lt] at hd
      exact hd j (List.mem_finRange j) ⟨hj, hm⟩
    · have hji : j ≠ i := by rintro rfl; exact hm (mem_chainOf_self ..)
      rw [put_get_ne _ _ hji] at hj
      rw [chainOf_put_of_notMem hm]
      exact h j hj
  · have hji : j ≠ i := by rintro rfl; rw [put_get_self] at hj; exact he hj
    have hp : e.pred = none := by rw [hc (Bool.eq_false_iff.mpr he)]; rfl
    rw [put_get_ne _ _ hji] at hj
    exact (chainOf_put_length_le hp 24 j).trans (h j hj)

theorem canonical_invalid : RuleEntry.invalid.canonical := fun _ => rfl

theorem Store.loadRule_short {st : Store} (h : ∀ i : RuleIx, ∀ e ∈ st.rule[i], e.canonical) :
    chainsShort st.loadRule :=
  loadKept_induct chainsShort (fun i hi => by simp [RuleEntry.invalid] at hi)
    fun _ i e hk _ he hc => chainsShort_put hk (h i e he) hc

theorem Store.loadRule_canonical {st : Store} (h : ∀ i : RuleIx, ∀ e ∈ st.rule[i], e.canonical) (i : RuleIx) :
    st.loadRule[i].canonical := by
  rcases loadKept_get RuleEntry.invalid chainTooLong st.rule i with e | e
  · exact e ▸ canonical_invalid
  · exact h i _ e

/-! ### The laws over the records -/

namespace Records

/-- What `State.mapsWhole` says of the records. -/
def mapsWhole (x : Records) : Prop := seatsUnique x.seatmap ∧ serialsUnique x.node

/-- What `State.rulesWhole` says of the records. -/
def rulesWhole (x : Records) : Prop :=
  chainsShort x.rules ∧ (∀ i : RuleIx, x.rules[i].canonical) ∧ (∀ i e, x.staging = some (.rule i e) → e.canonical) ∧
    ∀ i : RuleIx, ∀ e ∈ x.storedRules[i], e.canonical

/-- What `State.loadsWhole` says of the records. -/
def loadsWhole (x : Records) : Prop :=
  (∀ p : Pos, x.poscfg[p].lawful) ∧ (∀ i c, x.staging = some (.poscfg i c) → c.lawful) ∧
    (∀ i : Fin 16, ∀ c ∈ x.storedCfgs[i], c.lawful) ∧ ∀ p : Pos, x.positions[p].ranged

/-- What `State.positionsWhole` says of the records. -/
def positionsWhole (x : Records) : Prop := ∀ p : Pos, x.positions[p].whole

/-- What `State.pendingWhole` says of the records. -/
def pendingWhole (x : Records) : Prop := ∀ p : Pos, pendingOk x.poscfg[p] x.positions[p].pending

/-- What `State.armedWhole` says of the records. -/
def armedWhole (x : Records) : Prop := ∀ p : Pos, armedOk x.rules x.positions[p].armed

/-- What `State.slotsWhole` says of the records. -/
def slotsWhole (x : Records) : Prop := ∀ i : Slot, x.slots[i].whole

end Records

/-- A law that every single change keeps is kept by every step. -/
theorem step_keeps {P : Records → Prop} (hP : ∀ x y, Change x y → P x → P y) {s t : State} (h : step s = .next t)
    (hs : P s.records) : P t.records := by
  have hm : Relation.ReflTransGen Change s.records t.records := step_moves h
  generalize t.records = y at hm ⊢
  induction hm with
  | refl => exact hs
  | tail _ hc ih => exact hP _ _ hc ih

/-- What holds of the entry put in a table and of every entry before holds of every entry after. -/
theorem forall_put {α : Type} {n : Nat} {P : Fin n → α → Prop} {v : Vector α n} {i : Fin n} {a : α} (hi : P i a)
    (h : ∀ j, j ≠ i → P j v[j]) (j : Fin n) : P j (put v i a)[j] := by
  by_cases e : j = i
  · subst e; rw [put_get_self]; exact hi
  · rw [put_get_ne _ _ e]; exact h j e

theorem replicate_get {α : Type} {n : Nat} (a : α) (i : Fin n) : (Vector.replicate n a)[i] = a := by simp

/-- The records of a boot: everything at its reset value, the tables as the store loads them. -/
theorem boot_position (st : Store) (q : List Instr) (n : Nat) (p : Pos) :
    (State.boot st q n).records.positions[p] = Position.reset := replicate_get _ p

theorem boot_slot (st : Store) (q : List Instr) (n : Nat) (i : Slot) :
    (State.boot st q n).records.slots[i] = SlotRec.reset := replicate_get _ i

theorem Change.mapsWhole {x y : Records} (h : Change x y) (hx : x.mapsWhole) : y.mapsWhole := by
  cases h with
  | node i e hd => exact ⟨hx.1, serialsUnique_put hx.2 hd⟩
  | seatmap i e hd => exact ⟨seatsUnique_put hx.1 hd, hx.2⟩
  | boot st => exact ⟨st.loadSeatmap_unique, st.loadNode_unique⟩
  | position | slot | poscfg | rule | softReset | stage | store => exact hx

theorem Change.rulesWhole {x y : Records} (h : Change x y) (hx : x.rulesWhole) : y.rulesWhole := by
  obtain ⟨hs, hc, hst, hstored⟩ := hx
  cases h with
  | rule i e he hd =>
    exact ⟨chainsShort_put hs he hd, forall_put (P := fun _ (e : RuleEntry) => e.canonical) he fun j _ => hc j, hst, hstored⟩
  | stage st hr _ =>
    refine ⟨hs, hc, fun i e h => ?_, hstored⟩
    obtain ⟨j, rfl⟩ := hr i e h
    exact hc j
  | store rs cs hr _ =>
    refine ⟨hs, hc, hst, fun i e h => ?_⟩
    rcases hr i e h with h | ⟨j, h⟩
    exacts [hstored i e h, hst j e h]
  | boot st _ _ hr _ =>
    rw [← hr] at hstored
    refine ⟨Store.loadRule_short hstored, Store.loadRule_canonical hstored, ?_, hstored⟩
    intro _ _ h
    cases h
  | position | slot | node | seatmap | poscfg | softReset => exact ⟨hs, hc, hst, hstored⟩

theorem PosChange.ranged {cfg : PosCfg} {rules : Rules} {p : Pos} {r r' : Position} (h : PosChange cfg rules p r r')
    (hc : cfg.lawful) (hr : r.ranged) : r'.ranged := by
  cases h with
  | cleared => exact ⟨Nat.zero_le _, Nat.zero_le _⟩
  | block => exact Position.takeBlock_ranged hc hr
  | reminded | noticed | lost => exact hr

theorem Change.loadsWhole {x y : Records} (h : Change x y) (hx : x.loadsWhole) : y.loadsWhole := by
  obtain ⟨hc, hst, hstored, hr⟩ := hx
  have hreset : Position.reset.ranged := ⟨Nat.zero_le _, Nat.zero_le _⟩
  cases h with
  | position p r h =>
    exact ⟨hc, hst, hstored, forall_put (P := fun _ (r : Position) => r.ranged) (h.ranged (hc p) (hr p)) fun q _ => hr q⟩
  | poscfg p c h =>
    exact ⟨forall_put (P := fun _ (c : PosCfg) => c.lawful) h fun q _ => hc q, hst, hstored,
      forall_put (P := fun _ (r : Position) => r.ranged) (hr p) fun q _ => hr q⟩
  | rule i e _ _ =>
    refine ⟨hc, hst, hstored, fun p => ?_⟩
    have e : (Vector.ofFn fun p => x.positions[p].disarm i)[p] = x.positions[p].disarm i := by simp
    rw [e]
    exact hr p
  | softReset => exact ⟨hc, hst, hstored, fun p => by rw [replicate_get]; exact hreset⟩
  | stage st _ hl =>
    refine ⟨hc, fun i c h => ?_, hstored, hr⟩
    obtain ⟨j, rfl⟩ := hl i c h
    exact hc j
  | store rs cs _ hl =>
    refine ⟨hc, hst, fun i c h => ?_, hr⟩
    rcases hl i c h with h | ⟨j, h⟩
    exacts [hstored i c h, hst j c h]
  | boot st q n _ hl =>
    rw [← hl] at hstored
    refine ⟨fun p => ?_, ?_, hstored, ?_⟩
    · show (loadPlain PosCfg.default st.poscfg)[p].lawful
      rw [loadPlain_get]
      cases hp : st.poscfg[p] with
      | none => exact ⟨by decide, by decide, by decide, by decide, by decide⟩
      | some c => exact hstored p c hp
    · intro _ _ h
      cases h
    · intro p
      rw [boot_position]
      exact hreset
  | slot | node | seatmap => exact ⟨hc, hst, hstored, hr⟩

theorem Position.reset_whole : Position.reset.whole :=
  ⟨iff_of_true rfl rfl, fun _ => ⟨rfl, rfl, rfl, rfl⟩, fun _ => ⟨rfl, rfl, rfl⟩⟩

theorem PosChange.whole {cfg : PosCfg} {rules : Rules} {p : Pos} {r r' : Position} (h : PosChange cfg rules p r r')
    (hr : r.whole) : r'.whole := by
  cases h with
  | reminded out ho =>
    obtain ⟨h1, h2, h3⟩ := hr
    refine ⟨h1, fun hp => ?_, h3⟩
    obtain ⟨hc, hb, hl, _⟩ := h2 hp
    exact ⟨hc, hb, hl, ho hp⟩
  | noticed => exact hr
  | cleared => exact Position.reset_whole
  | lost h =>
    have hp : r.presence ≠ .noSeat := by rcases h with e | e <;> rw [e] <;> decide
    exact ⟨iff_of_false (by decide : Presence.sourceLost ≠ .noSeat) fun e => hp (hr.1.mpr e),
      fun e => absurd e (by decide : Presence.sourceLost ≠ .noSeat), fun _ => ⟨rfl, rfl, rfl⟩⟩
  | block => exact Position.takeBlock_whole hr

theorem Change.positionsWhole {x y : Records} (h : Change x y) (hx : x.positionsWhole) : y.positionsWhole := by
  cases h with
  | position p r h => exact forall_put (P := fun _ (r : Position) => r.whole) (h.whole (hx p)) fun q _ => hx q
  | poscfg p c _ =>
    obtain ⟨h1, h2, h3⟩ := hx p
    refine forall_put (P := fun _ (r : Position) => r.whole) ⟨h1, h2, fun hp => ?_⟩ fun q _ => hx q
    exact ⟨rfl, rfl, (h3 hp).2.2⟩
  | rule i _ _ _ =>
    intro p
    have e : (Vector.ofFn fun p => x.positions[p].disarm i)[p] = x.positions[p].disarm i := by simp
    show (Vector.ofFn fun p => x.positions[p].disarm i)[p].whole
    rw [e]
    obtain ⟨h1, h2, h3⟩ := hx p
    refine ⟨h1, h2, fun hp => ?_⟩
    obtain ⟨ha, hq, hc⟩ := h3 hp
    refine ⟨?_, hq, hc⟩
    show put x.positions[p].armed i 0 = _
    rw [ha]
    ext j hj
    simp [put]
  | softReset => intro p; show (Vector.replicate 16 Position.reset)[p].whole; rw [replicate_get]; exact Position.reset_whole
  | boot st q n _ _ => intro p; rw [boot_position]; exact Position.reset_whole
  | slot | node | seatmap | stage | store => exact hx

theorem PosChange.pendingOk {cfg : PosCfg} {rules : Rules} {p : Pos} {r r' : Position} (h : PosChange cfg rules p r r')
    (hr : pendingOk cfg r.pending) : pendingOk cfg r'.pending := by
  cases h with
  | cleared | lost => exact pendingOk_none cfg
  | block => exact Position.takeBlock_pendingOk hr
  | reminded | noticed => exact hr

theorem Change.pendingWhole {x y : Records} (h : Change x y) (hx : x.pendingWhole) : y.pendingWhole := by
  cases h with
  | position p r h =>
    exact forall_put (P := fun q (r : Position) => Machine.pendingOk x.poscfg[q] r.pending) (h.pendingOk (hx p)) fun q _ => hx q
  | poscfg p c _ =>
    intro q
    by_cases e : q = p
    · subst e
      have h : (put x.positions q x.positions[q].reseed)[q] = x.positions[q].reseed := put_get_self _ _ _
      show Machine.pendingOk _ (put x.positions q x.positions[q].reseed)[q].pending
      rw [h]
      exact pendingOk_none _
    · show Machine.pendingOk (put x.poscfg p c)[q] (put x.positions p x.positions[p].reseed)[q].pending
      rw [put_get_ne _ _ e, put_get_ne _ _ e]
      exact hx q
  | rule i _ _ _ =>
    intro p
    have e : (Vector.ofFn fun p => x.positions[p].disarm i)[p] = x.positions[p].disarm i := by simp
    show Machine.pendingOk _ (Vector.ofFn fun p => x.positions[p].disarm i)[p].pending
    rw [e]
    exact hx p
  | softReset =>
    intro p
    show Machine.pendingOk _ (Vector.replicate 16 Position.reset)[p].pending
    rw [replicate_get]
    exact pendingOk_none _
  | boot st q n _ _ => intro p; rw [boot_position]; exact pendingOk_none _
  | slot | node | seatmap | stage | store => exact hx

theorem PosChange.armedOk {cfg : PosCfg} {rules : Rules} {p : Pos} {r r' : Position} (h : PosChange cfg rules p r r')
    (hr : armedOk rules r.armed) : armedOk rules r'.armed := by
  cases h with
  | cleared | lost => exact armedOk_empty rules
  | block => exact Position.takeBlock_armedOk hr
  | reminded | noticed => exact hr

/-- A written rule is armed nowhere, and every other rule stands as it was (R50). -/
theorem armedOk_disarm {rules : Rules} {r : Position} (h : armedOk rules r.armed) (i : RuleIx) (e : RuleEntry) :
    armedOk (put rules i e) (r.disarm i).armed := by
  intro j hj
  have hji : j ≠ i := by
    rintro rfl
    exact hj (put_get_self _ _ _)
  have ha : (r.disarm i).armed[j] = r.armed[j] := put_get_ne _ _ hji
  rw [ha] at hj ⊢
  rw [put_get_ne _ _ hji]
  exact h j hj

theorem Change.armedWhole {x y : Records} (h : Change x y) (hx : x.armedWhole) : y.armedWhole := by
  cases h with
  | position p r h =>
    exact forall_put (P := fun _ (r : Position) => Machine.armedOk x.rules r.armed) (h.armedOk (hx p)) fun q _ => hx q
  | poscfg p c _ =>
    exact forall_put (P := fun _ (r : Position) => Machine.armedOk x.rules r.armed) (armedOk_empty _) fun q _ => hx q
  | rule i e _ _ =>
    intro p
    have hp : (Vector.ofFn fun p => x.positions[p].disarm i)[p] = x.positions[p].disarm i := by simp
    show Machine.armedOk _ (Vector.ofFn fun p => x.positions[p].disarm i)[p].armed
    rw [hp]
    exact armedOk_disarm (hx p) i e
  | softReset =>
    intro p
    show Machine.armedOk _ (Vector.replicate 16 Position.reset)[p].armed
    rw [replicate_get]
    exact armedOk_empty _
  | boot st q n _ _ => intro p; rw [boot_position]; exact armedOk_empty _
  | slot | node | seatmap | stage | store => exact hx

theorem SlotRec.reset_whole : SlotRec.reset.whole :=
  ⟨iff_of_true rfl rfl, iff_of_true rfl rfl, fun _ => ⟨rfl, rfl⟩, fun _ => rfl⟩

theorem Change.slotsWhole {x y : Records} (h : Change x y) (hx : x.slotsWhole) : y.slotsWhole := by
  cases h with
  | slot i r h => exact forall_put (P := fun _ (r : SlotRec) => r.whole) (h (hx i)) fun j _ => hx j
  | softReset => intro i; show (Vector.replicate 16 SlotRec.reset)[i].whole; rw [replicate_get]; exact SlotRec.reset_whole
  | boot st q n _ _ => intro i; rw [boot_slot]; exact SlotRec.reset_whole
  | position | node | seatmap | poscfg | rule | stage | store => exact hx

/-! ### The statements -/

/-- Settles O57: every single change keeps the laws of the tables. -/
theorem stepKeepsTableLaws : Obligations.StepKeepsTableLaws := by
  intro s t h
  exact ⟨step_keeps (P := Records.mapsWhole) (fun _ _ => Change.mapsWhole) h,
    step_keeps (P := Records.rulesWhole) (fun _ _ => Change.rulesWhole) h,
    step_keeps (P := Records.loadsWhole) (fun _ _ => Change.loadsWhole) h⟩

/-- Settles O58: every single change keeps the laws of the records. -/
theorem stepKeepsRecordLaws : Obligations.StepKeepsRecordLaws := by
  intro s t h
  refine ⟨step_keeps (P := Records.positionsWhole) (fun _ _ => Change.positionsWhole) h,
    step_keeps (P := Records.pendingWhole) (fun _ _ => Change.pendingWhole) h, fun hs p => ?_,
    step_keeps (P := Records.slotsWhole) (fun _ _ => Change.slotsWhole) h⟩
  exact step_keeps (P := Records.armedWhole) (fun _ _ => Change.armedWhole) h (fun p => hs p) p

/-- Settles O2: the boot of a hard reset field by field. -/
theorem hardResetValues : Obligations.HardResetValues := by
  intro s
  refine ⟨s.hardReset, rfl, fun p => replicate_get _ p, fun i => replicate_get _ i, rfl, rfl, rfl, ?_, ?_, ?_, ?_, ?_⟩
  · intro g
    cases g <;> exact ⟨rfl, rfl, rfl, rfl, rfl, rfl, rfl, rfl, rfl, rfl⟩
  · exact ⟨rfl, fun i => replicate_get _ i, rfl, rfl, rfl, rfl, rfl, rfl, rfl⟩
  · exact ⟨fun p => replicate_get _ p, rfl, rfl, rfl, rfl⟩
  · exact ⟨rfl, rfl, rfl, rfl, rfl, rfl, rfl, rfl, rfl, rfl, rfl, rfl, rfl, rfl, rfl, rfl, rfl, rfl⟩
  · exact ⟨rfl, rfl, rfl⟩

/-- Settles O59: the reset values law by law. -/
theorem resetMeetsLaws : Obligations.ResetMeetsLaws := by
  have hpos : ∀ p : Pos, State.reset.positions[p] = Position.reset := fun p => replicate_get _ p
  have hrules : ∀ i : RuleIx, State.reset.rules[i] = RuleEntry.invalid := fun i => replicate_get _ i
  have hcfg : ∀ p : Pos, State.reset.poscfg[p] = PosCfg.default := fun p => replicate_get _ p
  have hoff : State.reset.ignitionWhole := by
    refine ⟨fun _ => rfl, ?_, fun _ p => ?_⟩
    · intro h
      cases h
    · rw [hpos]
      rfl
  refine ⟨by decide, ?_, ?_, ?_, hoff, ?_, Chd.reset_whole, ⟨rfl, hoff, ?_⟩, ⟨?_, ?_⟩, ⟨?_, ?_, ?_, ?_⟩,
    ⟨?_, ?_, ?_, ?_⟩, ?_, ?_, ?_, ?_⟩
  case refine_1 => exact ⟨⟨Nat.zero_le _, fun r h => by cases h⟩, Nat.zero_le _, fun r h => by cases h⟩
  case refine_2 =>
    intro g
    cases g <;> exact ⟨⟨by decide, by decide, .inl rfl⟩, fun _ => rfl⟩
  case refine_3 =>
    exact ⟨iff_of_false (by decide) (by decide), iff_of_false (by decide) (by decide), List.nodup_nil, rfl⟩
  case refine_4 => intro p; rw [hpos]; exact replicate_get _ p
  case refine_5 =>
    intro p
    have h : State.reset.chd.requests[p] = none := replicate_get _ p
    rw [hpos, h]
    rfl
  case refine_6 =>
    intro i j h
    have hi : State.reset.seatmap[i] = SeatMapEntry.invalid := replicate_get _ i
    rw [hi] at h; cases h
  case refine_7 =>
    intro i j h
    have hi : State.reset.node[i] = NodeEntry.invalid := replicate_get _ i
    rw [hi] at h; cases h
  case refine_8 => intro i h; rw [hrules] at h; cases h
  case refine_9 => intro i; rw [hrules]; exact canonical_invalid
  case refine_10 => intro _ _ h; cases h
  case refine_11 =>
    intro i e h
    have hi : State.reset.cfs.store.rule[i] = none := replicate_get _ i
    rw [hi] at h; cases h
  case refine_12 => intro p; rw [hcfg]; exact ⟨by decide, by decide, by decide, by decide, by decide⟩
  case refine_13 => intro _ _ h; cases h
  case refine_14 =>
    intro i e h
    have hi : State.reset.cfs.store.poscfg[i] = none := replicate_get _ i
    rw [hi] at h; cases h
  case refine_15 => intro p; rw [hpos]; exact ⟨Nat.zero_le _, Nat.zero_le _⟩
  case refine_16 => intro p; rw [hpos]; exact Position.reset_whole
  case refine_17 => intro p; rw [hpos]; exact pendingOk_none _
  case refine_18 => intro p i h; rw [hpos] at h; exact absurd (replicate_get 0 i) h
  case refine_19 =>
    intro i
    have hi : State.reset.slots[i] = SlotRec.reset := replicate_get _ i
    rw [hi]; exact SlotRec.reset_whole

end Sys2Proof.Machine
end

section
/-! SUPPORT. One block at a position, in the terms of the claims (R6 to R11). -/

namespace Sys2Proof.Machine

/-- Classification owes a notice exactly where it confirms another class (R62). -/
theorem Position.classify_owed (cfg : PosCfg) (rules : Rules) (p : Pos) (r : Position) :
    (r.classify cfg rules p).owed = (r.owed || decide ((r.classify cfg rules p).cls ≠ r.cls)) := by
  unfold Position.classify Position.confirm
  dsimp only
  split
  · simp
  · rename_i hc
    split
    · simp [hc]
    · simp

/-- The record before classification is the one after with class, pending, armed map and notice as they were. -/
theorem Position.before_classify (cfg : PosCfg) (rules : Rules) (p : Pos) (m : Position) :
    m = { m.classify cfg rules p with cls := m.cls, pending := m.pending, armed := m.armed, owed := m.owed } := by
  rw [Position.classify_shape]

/-- Settles O44, by the four handlings of a block. -/
theorem blockHandled : Obligations.BlockHandled := by
  intro cfg rules p src b r
  dsimp only
  refine ⟨fun h hb => Position.takeBlock_seated_low h hb, fun h hb => Position.takeBlock_held h hb, fun hb => ?_⟩
  by_cases h : r.presence = .noSeat
  · rw [Position.takeBlock_seated h hb]
    refine ⟨by simp [Position.seated, Position.arithmetic], fun _ => ?_, fun hn => absurd h hn, r.seated cfg src b, ?_, rfl⟩
    · simp [Position.classify_owed, Position.seated, Position.arithmetic]
    · rw [if_pos h]
      exact Position.before_classify ..
  · rw [Position.takeBlock_fed h hb]
    have hd : (r.fed cfg b).seedDue = false := by
      unfold Position.fed Position.arithmetic Position.debounceBuckle
      cases r.seedDue <;> rfl
    refine ⟨?_, fun hn => absurd hn h, fun _ => ⟨?_, ?_, ?_, ?_, fun hs => ?_, fun hs => ?_⟩, r.fed cfg b, ?_, rfl⟩
    · simp only [Position.classify_presence, Position.classify_footprint, Position.classify_anchorA,
        Position.classify_anchorB, Position.classify_tag, Position.classify_seedDue, Position.classify_rem, hd]
      exact ⟨rfl, rfl, rfl, rfl, rfl, trivial, rfl⟩
    · exact Position.classify_source ..
    · exact Position.classify_buckle ..
    · exact Position.classify_candidate ..
    · exact Position.classify_owed ..
    · simp only [Position.classify_load, Position.classify_band, Position.fed, Position.arithmetic, hs, if_true,
        and_self]
    · simp only [Position.classify_load, Position.classify_band, Position.fed, Position.arithmetic, hs]
      exact ⟨rfl, rfl⟩
    · rw [if_neg h]
      exact Position.before_classify ..

end Sys2Proof.Machine
end

section
/-! SUPPORT. The payloads of section 10.10 field by field, and the choice of the arbiter in the order of R201. -/

namespace Sys2Proof.Machine

/-! ### Bytes -/

theorem beBytes_two (n : Nat) : beBytes 2 n = [byte (n / 256), byte n] := rfl

theorem beBytes_four (n : Nat) :
    beBytes 4 n = [byte (n / 16777216), byte (n / 65536), byte (n / 256), byte n] := by
  have h : beBytes 4 n = [byte (n / 256 / 256 / 256), byte (n / 256 / 256), byte (n / 256), byte n] := rfl
  rw [h]
  simp only [Nat.div_div_eq_div_mul]

theorem optByte_seg (o : Option Seg) :
    optByte (o.map fun g => byte (segCode g)) = match o with | none => 0xFF | some .a => 0 | some .b => 1 := by
  rcases o with _ | _ | _ <;> rfl

theorem byte_sourceCode (o : Option Source) :
    byte (sourceCode o) =
      match o with | none => 0xFF | some .loc => 0x40 | some (.seat n k) => byte (n.val * 4 + k.val) := by
  rcases o with _ | _ | ⟨_, _⟩ <;> rfl

theorem byte_segCode (g : Seg) : byte (segCode g) = match g with | .a => 0 | .b => 1 := by cases g <;> rfl

/-- The two bytes of a watched position (section 10.10). -/
theorem alertPosBytes_eq (p : Pos) (x : Position) :
    alertPosBytes p x =
      match x.source with
      | some (.seat n k) => [byte (16 * p.val + 4 * x.presence.code + k.val), byte (32 * x.cls.code + 2 * n.val)]
      | _ => [byte (16 * p.val + 4 * x.presence.code), byte (32 * x.cls.code)] := by
  rcases h : x.source with _ | _ | ⟨n, k⟩ <;>
    simp [alertPosBytes, alertSource, h, Nat.mul_comm]

/-! ### The arbiter (R201) -/

section
variable {s : State}

theorem State.arbiter_awake (ht : s.tkp.tx = none) (hp : s.pmg.power = .run ∨ s.pmg.power = .parkWatch) :
    s.arbiter = s.firstCandidate := by
  unfold State.arbiter
  rw [ht]
  rcases hp with h | h <;> rw [h] <;> rfl

/-- No send starts in SLEEP or while a frame is being sent (R200, R204). -/
theorem State.arbiter_blocked (h : s.tkp.tx.isSome ∨ s.pmg.power = .sleep) : s.arbiter = none := by
  unfold State.arbiter
  split
  · rfl
  · rename_i ht
    rw [h.resolve_left ht]

/-- In STARTING the reply FIFO's head alone is chosen (R201). -/
theorem State.arbiter_starting (ht : s.tkp.tx = none) (hp : s.pmg.power = .starting) :
    s.arbiter = s.tkp.replies.head?.map Candidate.reply := by
  unfold State.arbiter
  rw [ht, hp]
  rfl

theorem State.firstCandidate_alert (h : s.pmg.alertOwed = true) : s.firstCandidate = some .alert := by
  unfold State.firstCandidate
  rw [if_pos h]

theorem State.firstCandidate_reply (h : s.pmg.alertOwed = false) {r : Reply} {rs : List Reply}
    (hr : s.tkp.replies = r :: rs) : s.firstCandidate = some (.reply r) := by
  unfold State.firstCandidate
  rw [h, hr]
  rfl

/-- With no ALERT owed and no REPLY waiting the segments' offers come first. -/
theorem State.firstCandidate_nodeans (h : s.pmg.alertOwed = false) (hr : s.tkp.replies = []) {c : Candidate}
    (hc : s.nodeansOffer = some c) : s.firstCandidate = some c := by
  unfold State.firstCandidate
  rw [h, hr, hc]
  rfl

theorem State.nodeansOffer_of {g : Seg} {a : PassRecord} (ho : (s.seg g).offer = some a)
    (hg : g = .a ∨ s.sga.offer = none) : s.nodeansOffer = some (.nodeans g a) := by
  unfold State.nodeansOffer
  cases g with
  | a =>
    have h : s.sga.offer = some a := ho
    rw [h]
  | b =>
    have h : s.sgb.offer = some a := ho
    rw [hg.resolve_left (by decide), h]
    rfl

/-- With no ALERT, REPLY and NODEANS to send the notices come in their order. -/
theorem State.firstCandidate_notices (h : s.pmg.alertOwed = false) (hr : s.tkp.replies = [])
    (hn : s.sga.offer = none ∧ s.sgb.offer = none) :
    s.firstCandidate = (if s.pmg.wakenoteOwed then some Candidate.wakenote else none).or
      ((s.owedPos.map Candidate.posnote).or
        ((s.owedSlot.map Candidate.seatnote).or (s.tkp.mirror.head?.map Candidate.mirror))) := by
  unfold State.firstCandidate State.nodeansOffer
  rw [h, hr, hn.1, hn.2]
  rfl

theorem State.owedPos_lowest {p : Pos} (h : s.positions[p].owed = true)
    (h' : ∀ q : Pos, q < p → s.positions[q].owed = false) : s.owedPos = some p := find_lowest h h'

theorem State.owedPos_none (h : ∀ q : Pos, s.positions[q].owed = false) : s.owedPos = none := find_none h

theorem State.owedSlot_lowest {i : Slot} (h : s.slots[i].owed = true)
    (h' : ∀ j : Slot, j < i → s.slots[j].owed = false) : s.owedSlot = some i := find_lowest h h'

theorem State.owedSlot_none (h : ∀ i : Slot, s.slots[i].owed = false) : s.owedSlot = none := find_none h

/-! ### The SEND rows -/

theorem execSendReply_of {r : Reply} (h : s.arbiter = some (.reply r)) :
    exec .sendReply s = .next (s.startSend Kind.reply r.tag r.bytes (.reply r.kind r.status)) := by
  show execSendReply s = _
  unfold execSendReply
  rw [h]

theorem execSendReply_none (h : s.arbiter = none) : exec .sendReply s = .next s := by
  show execSendReply s = _
  unfold execSendReply
  rw [h]

/-- No other SEND row starts anything where the arbiter chooses nothing or a REPLY. -/
theorem execSend_idle (h : ∀ c, s.arbiter = some c → ∃ r, c = .reply r) :
    exec .sendAlert s = .next s ∧ exec .sendNodeans s = .next s ∧ exec .sendWakenote s = .next s ∧
      exec .sendPosnote s = .next s ∧ exec .sendSeatnote s = .next s ∧ exec .sendMirror s = .next s := by
  show execSendAlert s = _ ∧ execSendNodeans s = _ ∧ execSendWakenote s = _ ∧ execSendPosnote s = _ ∧
    execSendSeatnote s = _ ∧ execSendMirror s = _
  unfold execSendAlert execSendNodeans execSendWakenote execSendPosnote execSendSeatnote execSendMirror
  cases ha : s.arbiter with
  | none => exact ⟨rfl, rfl, rfl, rfl, rfl, rfl⟩
  | some c =>
    obtain ⟨r, rfl⟩ := h c ha
    exact ⟨rfl, rfl, rfl, rfl, rfl, rfl⟩

theorem State.arbiter_reply_only (h : s.tkp.tx.isSome ∨ s.pmg.power = .sleep ∨ s.pmg.power = .starting) (c : Candidate)
    (hc : s.arbiter = some c) : ∃ r, c = .reply r := by
  rcases or_assoc.mpr h with hb | hp
  · rw [State.arbiter_blocked hb] at hc; cases hc
  · cases ht : s.tkp.tx with
    | some x =>
      rw [State.arbiter_blocked (.inl (by rw [ht]; rfl))] at hc; cases hc
    | none =>
      rw [State.arbiter_starting ht hp] at hc
      obtain ⟨r, _, rfl⟩ := Option.map_eq_some_iff.mp hc
      exact ⟨r, rfl⟩

end

/-- Settles O30, along the order of the arbiter. -/
theorem sendsInOrder : Obligations.SendsInOrder := by
  refine ⟨?_, fun s => ⟨fun h => execSendReply_none (State.arbiter_blocked h),
    fun h => execSend_idle (State.arbiter_reply_only h), fun r rs ht hp hr => ?_⟩⟩
  · intro s r rs g a st body p i c cs ht hp
    have harb := State.arbiter_awake ht hp
    dsimp only
    refine ⟨fun ha => ?_, fun ha => ⟨fun hr => ?_, fun hr => ⟨fun ho has hg => ?_, fun hn => ⟨fun hw => ?_, fun hw =>
      ⟨fun hpo hpl => ?_, fun hq => ⟨fun hso hsl => ?_, fun hs hm => ?_⟩⟩⟩⟩⟩⟩
    · have h := harb.trans (State.firstCandidate_alert ha)
      show execSendAlert s = _
      unfold execSendAlert
      rw [h]
      refine congrArg (fun b => Host.Outcome.next
        ((s.startSend Kind.alert 0 b .notice).modPmg fun m => { m with alertOwed := false })) (?_ : s.alertBytes = _)
      simp only [State.alertBytes, beBytes_two, alertPosBytes_eq]
      cases s.pmg.sub <;> rfl
    · rw [execSendReply_of (harb.trans (State.firstCandidate_reply ha hr))]
      rfl
    · have h := harb.trans (State.firstCandidate_nodeans ha hr (State.nodeansOffer_of ho hg))
      show execSendNodeans s = _
      unfold execSendNodeans
      rw [h]
      simp only [PassRecord.answerBytes, has]
      rfl
    · have h := harb.trans (State.firstCandidate_notices ha hr hn)
      rw [hw] at h
      show execSendWakenote s = _
      unfold execSendWakenote
      rw [h]
      rfl
    · have h := harb.trans (State.firstCandidate_notices ha hr hn)
      rw [hw, State.owedPos_lowest hpo hpl] at h
      show execSendPosnote s = _
      unfold execSendPosnote
      rw [h]
      simp only [Bool.false_eq_true, if_false, Option.none_or, Option.map_some, Option.some_or, posnoteBytes,
        byte_sourceCode, beBytes_two]
      rfl
    · have h := harb.trans (State.firstCandidate_notices ha hr hn)
      rw [hw, State.owedPos_none hq, State.owedSlot_lowest hso hsl] at h
      show execSendSeatnote s = _
      unfold execSendSeatnote
      rw [h]
      refine congrArg (fun b => Host.Outcome.next ((s.startSend Kind.seatnote 0 b .notice).setSlot i
        { s.slots[i] with events := 0, owed := false })) (?_ : seatnoteBytes i s.slots[i] = _)
      simp only [seatnoteBytes, optByte_seg, beBytes_four]
      cases s.slots[i].serial <;> rfl
    · have h := harb.trans (State.firstCandidate_notices ha hr hn)
      rw [hw, State.owedPos_none hq, State.owedSlot_none hs, hm] at h
      show execSendMirror s = _
      unfold execSendMirror
      rw [h]
      simp only [Bool.false_eq_true, if_false, Option.none_or, Option.map_none, List.head?_cons, Option.map_some,
        MirrorCopy.bytes, byte_segCode, beBytes_four]
      rfl
  · have h : s.arbiter = some (.reply r) := by rw [State.arbiter_starting ht hp, hr]; rfl
    rw [execSendReply_of h]
    rfl

end Sys2Proof.Machine
end

section
/-! SUPPORT. TBLRD and POSQRY: the answer of a read, the packed results bit by bit, and each table's entry and status. -/

namespace Sys2Proof.Machine

/-! ### Bits of packed numbers (section 10.10) -/

theorem beBytes_length (n v : Nat) : (beBytes n v).length = n := by
  induction n generalizing v with
  | zero => rfl
  | succ n ih => simp [beBytes, ih]

/-- Byte `j` of a number in `n` bytes, the first the highest. -/
theorem beBytes_getD {n j : Nat} (v : Nat) (h : j < n) : (beBytes n v).getD j 0 = byte (v / 256 ^ (n - 1 - j)) := by
  induction n generalizing v with
  | zero => omega
  | succ n ih =>
    rw [beBytes]
    by_cases hj : j < n
    · rw [List.getD_append _ _ _ _ (by rwa [beBytes_length]), ih _ hj, Nat.div_div_eq_div_mul, ← Nat.pow_succ',
        show (n - 1 - j).succ = n + 1 - 1 - j by omega]
    · have hj' : j = n := by omega
      subst hj'
      rw [List.getD_append_right _ _ _ _ (by rw [beBytes_length]), beBytes_length]
      simp

theorem byte_getLsbD {t : Nat} (n : Nat) (h : t < 8) : (byte n).getLsbD t = n.testBit t := by
  rw [byte, BitVec.getLsbD_ofNat, decide_eq_true h, Bool.true_and]

/-- Numbers of 10 bits packed one after the other: each keeps its bits in its place. -/
theorem packed_testBit (l : List Nat) (h : ∀ x ∈ l, x < 1024) (a : Nat) {k t : Nat} (hk : k < l.length) (ht : t < 10) :
    (l.foldl (fun acc x => acc * 1024 + x) a).testBit (10 * (l.length - 1 - k) + t) = (l.getD k 0).testBit t := by
  induction l using List.reverseRecOn with
  | nil => cases hk
  | append_singleton l x ih =>
    have hx : x < 2 ^ 10 := h x (by simp)
    rw [List.foldl_append, List.foldl_cons, List.foldl_nil, Nat.mul_comm, show (1024 : Nat) = 2 ^ 10 from rfl,
      Nat.testBit_two_pow_mul_add _ hx]
    rw [List.length_append, List.length_singleton] at hk ⊢
    by_cases hl : k < l.length
    · rw [if_neg (by omega), List.getD_append _ _ _ _ hl, ← ih (fun y hy => h y (List.mem_append_left _ hy)) hl]
      congr 1
      omega
    · have hk' : k = l.length := by omega
      subst hk'
      rw [if_pos (by omega), List.getD_append_right _ _ _ _ le_rfl]
      simp

/-- The bits of the packed results, most significant first (R78). -/
theorem packResults_bit (v : Vector Count 19) (i : Fin 19) (b : Fin 10) :
    ((packResults v).getD ((10 * i.val + b.val) / 8) 0).getLsbD (7 - (10 * i.val + b.val) % 8) =
      v[i].val.testBit (9 - b.val) := by
  have hi := i.isLt
  have hb := b.isLt
  have hfold : (List.finRange 19).foldl (fun acc i => acc * 1024 + v[i].val) 0 =
      ((List.finRange 19).map fun i => v[i].val).foldl (fun acc x => acc * 1024 + x) 0 := by rw [List.foldl_map]
  have hsmall : ∀ x ∈ (List.finRange 19).map fun i => v[i].val, x < 1024 := by
    intro x hx
    obtain ⟨j, _, rfl⟩ := List.mem_map.mp hx
    exact v[j].isLt
  have hbit := packed_testBit ((List.finRange 19).map fun i => v[i].val)
    hsmall 0
    (k := i.val) (t := 9 - b.val) (by simp) (by omega)
  have hget : ((List.finRange 19).map fun i => v[i].val).getD i.val 0 = v[i].val := by simp [List.getD]
  rw [hget, List.length_map, List.length_finRange] at hbit
  unfold packResults
  rw [hfold, beBytes_getD _ (by omega), byte_getLsbD _ (by omega), show (256 : Nat) = 2 ^ 8 from rfl, ← Nat.pow_mul,
    Nat.testBit_div_two_pow, ← hbit, show (4 : Nat) = 2 ^ 2 from rfl, Nat.mul_comm _ (2 ^ 2), Nat.testBit_two_pow_mul,
    decide_eq_true (by omega), Bool.true_and]
  congr 1
  omega

/-- The two bits left over are zero (log entry 12). -/
theorem packResults_spare (v : Vector Count 19) {t : Nat} (h : t < 2) : ((packResults v).getD 23 0).getLsbD t = false := by
  unfold packResults
  rw [beBytes_getD _ (by omega), byte_getLsbD _ (by omega), show (256 : Nat) = 2 ^ 8 from rfl, ← Nat.pow_mul,
    Nat.testBit_div_two_pow, show (4 : Nat) = 2 ^ 2 from rfl, Nat.mul_comm _ (2 ^ 2), Nat.testBit_two_pow_mul,
    decide_eq_false (by omega), Bool.false_and]

theorem packHalves_eq (f : Pos → Nat) :
    packHalves f = (List.finRange 8).map fun k : Fin 8 =>
      byte (16 * f ⟨2 * k.val, by omega⟩ + f ⟨2 * k.val + 1, by omega⟩) := by
  unfold packHalves
  apply List.map_congr_left
  intro k _
  have h1 : Fin.ofNat 16 (2 * k.val) = ⟨2 * k.val, by omega⟩ := Fin.ext (Nat.mod_eq_of_lt (by omega))
  have h2 : Fin.ofNat 16 (2 * k.val + 1) = ⟨2 * k.val + 1, by omega⟩ := Fin.ext (Nat.mod_eq_of_lt (by omega))
  rw [h1, h2, Nat.mul_comm]

/-! ### The frame of a read -/

section
variable {s : State}

theorem State.entryBytes_rxHunt (t : TableId) (n : Nat) : s.rxHunt.entryBytes t n = s.entryBytes t n := by
  cases t <;> rfl

theorem State.statusBytes_rxHunt (t : TableId) (n : Nat) : s.rxHunt.statusBytes t n = s.statusBytes t n := by
  cases t <;> rfl

theorem tableOfId_id (t : TableId) : tableOfId (byte t.id).toNat = some t := by cases t <;> rfl

theorem tableOfId_none {n : Nat} (h : n = 0 ∨ 12 < n) : tableOfId n = none := by
  unfold tableOfId
  split
  case h_13 => rfl
  all_goals omega

theorem execTblrd_eq (h : s.takes) (tag id index : Byte) :
    exec (.tblrd tag [id, index]) s = .next (s.rxHunt.readTable tag id index) :=
  congrArg Host.Outcome.next (State.takes.own h)

theorem execTblrd_badTable (h : s.takes) (tag : Byte) {id : Byte} (index : Byte) (hid : id = 0 ∨ 12 < id.toNat) :
    exec (.tblrd tag [id, index]) s = .next
      ({ s with tkp := { s.tkp with flags := { s.tkp.flags with badTable := true } } }.answered tag 0x03 .table
        [id, index]) := by
  rw [execTblrd_eq h]
  unfold State.readTable
  rw [tableOfId_none (hid.imp_left fun e => by rw [e]; rfl)]
  rfl

theorem execTblrd_range (h : s.takes) (tag index : Byte) {t : TableId} (hn : t.count ≤ index.toNat) :
    exec (.tblrd tag [byte t.id, index]) s = .next (s.answered tag 0x03 .range [byte t.id, index]) := by
  rw [execTblrd_eq h]
  unfold State.readTable
  rw [tableOfId_id]
  dsimp only
  rw [if_pos hn]
  rfl

/-- A read of an entry answers the entry and the owner's status (R194). -/
theorem execTblrd_ok (h : s.takes) (tag : Byte) (t : TableId) {n : Nat} (hn : n < t.count) {bs : List Byte}
    (hb : s.entryBytes t n ++ s.statusBytes t n = bs) :
    exec (.tblrd tag [byte t.id, byte n]) s = .next
      ({ s with free := s.free + t.freeUsed }.answered tag 0x03 .ok (byte t.id :: byte n :: bs)) := by
  have hn' : (byte n).toNat = n := byte_toNat (by cases t <;> simp only [TableId.count] at hn <;> omega)
  rw [execTblrd_eq h]
  unfold State.readTable
  rw [tableOfId_id]
  dsimp only
  rw [hn', if_neg (by omega), State.entryBytes_rxHunt, State.statusBytes_rxHunt, hb]
  rfl

theorem execPosqry_eq (h : s.takes) (tag b : Byte) :
    exec (.posqry tag [b]) s = .next (
      if 15 < b.toNat then s.answered tag 0x04 .range []
      else s.answered tag 0x04 .ok (posqryBytes (Fin.ofNat 16 b.toNat) s.positions[Fin.ofNat 16 b.toNat])) :=
  congrArg Host.Outcome.next (State.takes.own h)

end

/-! ### Statuses -/

/-- SEGCFG's entry and status field by field (R107). -/
theorem Segment.readBytes_eq (x : Segment) :
    x.cfg.bytes ++ x.statusBytes =
      [flagByte x.cfg.enable, byte x.cfg.head.val, byte x.cfg.pollInterval, byte x.cfg.replyWindow,
        byte x.cfg.missLimit, byte x.cfg.detachCount, byte x.state.code, byte x.pointer.val] ++
        (match x.poll with
          | none => [0xFF, 0xFF, 0xFF]
          | some p => [byte p.slot.val, byte p.entry.val, match p.tag with | none => 0xFF | some b => b]) ++
        [byte x.records.length] ++ x.records.flatMap fun r => [r.tag, byte r.slot.val, byte r.state.code,
          match r.state with | .answered st _ _ => byte st.code | _ => 0xFF] := by
  unfold SegCfg.bytes Segment.statusBytes PassRecord.statusBytes
  rcases x.poll with _ | ⟨_, _, _ | _, _⟩ <;> rfl

theorem byte_ignitionCode (b : Bool) : byte (ignitionCode b) = if b then 0 else 1 := by cases b <;> rfl

theorem byte_doorCode (b : Bool) : byte (doorCode b) = if b then 1 else 0 := by cases b <;> rfl

theorem byte_grantCode (g : Grant) :
    byte g.code = match g with | .none => 0 | .alert => 1 | .test => 2 | .pos p => byte (3 + p.val) := by
  cases g <;> rfl

theorem requestHalf_eq (o : Option Tone) : requestHalf o = match o with | none => 15 | some t => t.val := by
  cases o <;> rfl

theorem get_ofNat {α : Type} {n : Nat} [NeZero n] (v : Vector α n) (i : Fin n) : v[Fin.ofNat n i.val] = v[i] := by
  simp only [ofNat_fin]

end Sys2Proof.Machine
end

section
/-! SUPPORT. The answers of TBLRD and POSQRY field by field. -/

namespace Sys2Proof.Machine

/-- Settles O22, table by table. -/
theorem readsAnswered : Obligations.ReadsAnswered := by
  refine ⟨fun s tag id index h => ⟨execTblrd_badTable h tag index, fun t => execTblrd_range h tag index⟩, ?_, ?_, ?_⟩
  · intro s tag h
    dsimp only
    refine ⟨fun i => ?_, fun i => ?_, fun i => ?_, fun i => ?_, fun i => ?_, fun i => ⟨?_, ?_⟩, ?_, ?_, ?_, ?_, ?_, ?_⟩
    · refine execTblrd_ok h tag .node i.isLt ?_
      simp only [State.entryBytes, State.statusBytes, get_ofNat, NodeEntry.bytes, SlotRec.statusBytes, beBytes_four,
        optByte_seg]
      cases s.slots[i].serial <;> cases s.slots[i].lastSeq <;> rfl
    · refine execTblrd_ok h tag .seatmap i.isLt ?_
      simp only [State.entryBytes, State.statusBytes, get_ofNat, SeatMapEntry.bytes]
      rfl
    · refine execTblrd_ok h tag .poscfg i.isLt ?_
      simp only [State.entryBytes, State.statusBytes, get_ofNat, PosCfg.bytes, beBytes_two, List.append_nil]
      rfl
    · refine execTblrd_ok h tag .rule i.isLt ?_
      simp only [State.entryBytes, State.statusBytes, get_ofNat, RuleEntry.bytes, beBytes_two, List.append_nil]
      cases s.rules[i].pred <;> cases s.rules[i].outcome <;> rfl
    · refine execTblrd_ok h tag .profile i.isLt ?_
      simp only [State.entryBytes, State.statusBytes, get_ofNat, ProfileEntry.bytes]
      rfl
    · refine execTblrd_ok h tag .ringA i.isLt ?_
      simp only [State.entryBytes, State.statusBytes, get_ofNat, RingEntry.bytes]
      cases s.sga.ring[i].next <;> rfl
    · refine execTblrd_ok h tag .ringB i.isLt ?_
      simp only [State.entryBytes, State.statusBytes, get_ofNat, RingEntry.bytes]
      cases s.sgb.ring[i].next <;> rfl
    · exact execTblrd_ok h tag .segcfg (n := 0) (by decide) (Segment.readBytes_eq s.sga)
    · exact execTblrd_ok h tag .segcfg (n := 1) (by decide) (Segment.readBytes_eq s.sgb)
    · refine ⟨packResults s.lsu.results, beBytes_length .., packResults_bit _, packResults_spare _ (by decide),
        packResults_spare _ (by decide), execTblrd_ok h tag .localcfg (n := 0) (by decide) ?_⟩
      simp only [State.entryBytes, State.statusBytes, LocalCfg.bytes, Lsu.statusBytes, beBytes_two]
      cases s.lsu.remaining <;> rfl
    · refine ⟨optByte (s.pmg.runDown.map (remaining s.free)), fun e => by rw [e]; rfl, fun d e => ?_,
        execTblrd_ok h tag .timing (n := 0) (by decide) ?_⟩
      · exact ⟨min (Config.timeLeft s.free) d, Nat.min_le_right _ _, by rw [e]; rfl⟩
      · simp only [State.entryBytes, State.statusBytes, Timing.bytes, Pmg.statusBytes, beBytes_two, Causes.code,
          byte_ignitionCode, byte_doorCode, List.append_assoc]
        cases s.pmg.sub <;> rfl
    · refine ⟨min (Config.timeLeft s.free) 2, min (Config.timeLeft (s.free + 1)) 1, Nat.min_le_right _ _,
        Nat.min_le_right _ _, execTblrd_ok h tag .panelcfg (n := 0) (by decide) ?_⟩
      simp only [State.entryBytes, State.statusBytes, PanelCfg.bytes, panelStatusBytes, beBytes_two, packHalves_eq,
        byte_grantCode, requestHalf_eq, List.append_assoc]
      rfl
    · exact execTblrd_ok h tag .protect (n := 0) (by decide) rfl
  · intro s tag b p h
    dsimp only
    refine ⟨fun hb => (execPosqry_eq h tag b).trans (by rw [if_pos hb]), (execPosqry_eq h tag _).trans ?_⟩
    have hn : (byte p.val).toNat = p.val := byte_toNat (by omega)
    have hp : Fin.ofNat 16 (byte p.val).toNat = p := by rw [hn, ofNat_fin]
    rw [if_neg (by omega)]
    simp only [hp, posqryBytes, posnoteBytes, beBytes_two, byte_sourceCode]
    cases s.positions[p].pending <;> rfl
  · exact ⟨rfl, rfl, rfl, rfl, rfl, rfl, rfl, rfl, fun _ _ _ => rfl, rfl, rfl, rfl, rfl, rfl, rfl, rfl⟩

end Sys2Proof.Machine
end

section
/-! SUPPORT. The completion of a send, and the soft reset that the REPLY to SOFTRST brings (R199, R200). -/

namespace Sys2Proof.Machine

section
variable {s : State}

theorem execSendComplete_of (ign door : Bool) {x : Sending} (h : s.tkp.tx = some x) :
    exec (.sendComplete ign door) s = .next (s.txIdle.sendDone x.action ign door).settle := by
  show execSendComplete ign door s = _
  unfold execSendComplete
  rw [h]

/-- The blocks start at an entry to RUN with LSU at rest and the panel's scan running on (R161, R166). -/
theorem State.startBlocks_scanning (h : s.lsu.remaining = []) (hn : s.pnd.scanning = true) (hp : s.pmg.power = .run) :
    s.startBlocks = { s with
      sga := s.sga.started, sgb := s.sgb.started, tick := some (tickPeriod s.pmg.timing.tick)
      pnd := { s.pnd with flash := .a }, lsu := s.lsu.scanning } := by
  have hpnd : s.pnd.enterRun = { s.pnd with flash := .a } := by
    unfold Pnd.enterRun
    rw [if_pos hn]
  unfold State.startBlocks State.requestScan
  rw [hpnd, if_pos (by exact h)]
  unfold State.startScan
  dsimp only
  rw [hp]
  rfl

/-- The accepted REPLY to SOFTRST brings the soft reset (R199). -/
theorem State.sendDone_softrst (ign door : Bool) (h : s.tkp.softReset = true) :
    s.txIdle.sendDone (.reply 0x12 .ok) ign door = s.txIdle.freeHead.softReset ign door := by
  unfold State.sendDone State.replySent
  exact if_pos ⟨rfl, rfl, h⟩

end

/-- Settles O32: the soft reset in RUN and PARK_WATCH, and out of SLEEP. -/
theorem softReset : Obligations.SoftReset := by
  intro s ign door f hs htx
  have hexec := execSendComplete_of ign door htx
  rw [State.sendDone_softrst ign door hs] at hexec
  have hsettle : ∀ t : State, t.toChime = [] → t.pmg.power = .run → t.settle = t := fun t h1 h2 =>
    State.settle_of_settled ⟨h1, fun e => absurd (h2.symm.trans e) (by decide)⟩
  refine ⟨fun hp hn => ?_, fun hp hr => ?_⟩
  · have hpow : ¬s.txIdle.freeHead.pmg.power = .sleep := by
      rcases hp with h | h <;> exact fun e => absurd (h.symm.trans e) (by decide)
    rw [hexec, State.softReset, if_neg hpow, State.startBlocks_scanning (by rfl) (by exact hn) (by rfl),
      hsettle _ (by rfl) (by rfl)]
    rfl
  · have hpow : s.txIdle.freeHead.pmg.power = .sleep := hp
    rw [hexec, State.softReset, if_pos hpow, State.startBlocks_eq _ (by exact ⟨rfl, hr.2⟩) (by rfl),
      hsettle _ (by rfl) (by rfl)]
    unfold State.leaveSleep State.woken
    rw [Cfs.restart_eq]
    rfl

end Sys2Proof.Machine
end

section
/-! SUPPORT. Table writes that reach their owner: refused, or stored and settled; what CHD's requests are after a step. -/

namespace Sys2Proof.Machine

/-! ### A write and its answer (R193, R194) -/

section
variable {s u : State} {t : TableId} {tag index : Byte} {entry : List Byte}
  {own : Nat → List Byte → State → Except Status State}

/-- A refusal of the owner answers and changes nothing else. -/
theorem State.takeWrite_refused (h : s.takes) (hs : s.settled) (hp : s.cfs.protects t = false)
    (hi : index.toNat < t.count) (hl : entry.length = t.entrySize) {st : Status}
    (ho : own index.toNat entry s.rxHunt = .error st) :
    (s.takeWrite t tag index entry own).settle = s.answered tag 0x02 st [byte t.id, index] := by
  unfold State.takeWrite
  rw [h.own, State.writeTable_error (s := s.rxHunt) hi hl hp ho, State.rxHunt_refuseTable]
  exact State.settle_of_settled (State.settled_of_eq hs rfl rfl rfl)

/-- An entry the owner stores is answered as stored. -/
theorem State.takeWrite_stored (h : s.takes) (hp : s.cfs.protects t = false)
    (hi : index.toNat < t.count) (hl : entry.length = t.entrySize)
    (ho : own index.toNat entry s.rxHunt = .ok u) :
    s.takeWrite t tag index entry own =
      u.reply tag 0x02 .ok (byte t.id :: index :: u.entryBytes t index.toNat) := by
  unfold State.takeWrite
  exact h.own.trans (State.writeTable_ok (s := s.rxHunt) hi hl hp ho)

end

/-! ### CHD's requests after a step (R156) -/

/-- After a step that does not enter SLEEP a position's request is what its last event leaves, or as before. -/
theorem State.settle_requests {t : State} (h : t.pmg.power = .parkWatch → t.pmg.watchSet ≠ []) (p : Pos) :
    t.settle.chd.requests[p] = ((t.view p).events.getLast?.map ChimeEvent.leaves).getD t.chd.requests[p] := by
  rw [State.settle_eq_deliver h]
  exact (deliver_spec t).2.2.2.2.2 p

/-- Between steps no event is on its way from a position (R156). -/
theorem State.events_of_settled {s : State} (h : s.settled) (p : Pos) : (s.view p).events = [] := by
  show s.toChime.filter _ = []
  rw [h.1, List.filter_nil]

/-- A position whose sounding request is withdrawn has no request after the step (R149). -/
theorem Reminder.leave_of_sounding {r : Reminder} (h : r.sounding = true) : r.leave = [.withdraw] := by
  unfold Reminder.leave
  exact if_pos h

/-! ### SEATMAP (R18, R19) -/

/-- A SEATMAP entry of an invalidating write is the invalid form (R17). -/
theorem parseSeatMap_invalid (slot seat pos : Byte) : parseSeatMap [0, slot, seat, pos] = .ok SeatMapEntry.invalid := rfl

theorem flagAt_of_ne {v : Byte} (h : v ≠ 0) (bs : List Byte) : flagAt (v :: bs) 0 = true := by
  show byteFlag v = true
  unfold byteFlag
  exact decide_eq_true h

/-- The range check of a valid SEATMAP entry (R18). -/
theorem parseSeatMap_valid {v : Byte} (h : v ≠ 0) (slot seat pos : Byte) :
    parseSeatMap [v, slot, seat, pos] =
      if 15 < slot.toNat ∨ 2 < seat.toNat ∨ pos.toNat < 2 ∨ 15 < pos.toNat then .error .range
      else .ok { valid := true, slot := Fin.ofNat 16 slot.toNat, seat := Fin.ofNat 3 seat.toNat
                 pos := Fin.ofNat 16 pos.toNat } := by
  unfold parseSeatMap
  rw [flagAt_of_ne h]
  rfl

theorem seatDuplicate_iff {t : Vector SeatMapEntry 24} {i : Fin 24} {e : SeatMapEntry} :
    seatDuplicate t i e = true ↔ e.valid = true ∧ ∃ j : Fin 24, j ≠ i ∧ t[j].valid = true ∧
      ((t[j].slot = e.slot ∧ t[j].seat = e.seat) ∨ t[j].pos = e.pos) := by
  simp [seatDuplicate, and_assoc]

/-- The state after the position that a SEATMAP entry names is cleared, where it names one that is seated (R19). -/
def State.unseat (s : State) (old : SeatMapEntry) : State := if old.valid then s.clearIfSeated old.pos else s

theorem State.unseat_none {s : State} {old : SeatMapEntry}
    (h : old.valid = false ∨ s.positions[old.pos].presence = .noSeat) : s.unseat old = s := by
  unfold State.unseat State.clearIfSeated
  rcases h with h | h
  · rw [if_neg (by rw [h]; decide)]
  · rw [if_pos h, ite_self]

theorem State.unseat_some {s : State} {old : SeatMapEntry} (hv : old.valid = true)
    (hp : s.positions[old.pos].presence ≠ .noSeat) : s.unseat old = s.clearPos old.pos := by
  unfold State.unseat State.clearIfSeated
  rw [if_pos hv, if_neg hp]

section
variable {s : State} {n : Nat} {i : Fin 24} {bs : List Byte} {e : SeatMapEntry}

/-- An accepted SEATMAP entry is stored after the position of the old valid entry is cleared (R19). -/
theorem ownSeatmap_ok (hn : Fin.ofNat 24 n = i) (hp : parseSeatMap bs = .ok e)
    (hd : seatDuplicate s.seatmap i e = false) :
    ownSeatmap n bs s = .ok { s.unseat s.seatmap[i] with seatmap := put (s.unseat s.seatmap[i]).seatmap i e } := by
  subst hn
  unfold ownSeatmap
  rw [hp]
  exact if_neg (by rw [hd]; decide)

theorem ownSeatmap_duplicate (hn : Fin.ofNat 24 n = i) (hp : parseSeatMap bs = .ok e)
    (hd : seatDuplicate s.seatmap i e = true) : ownSeatmap n bs s = .error .duplicate := by
  subst hn
  unfold ownSeatmap
  rw [hp]
  exact if_pos hd

theorem ownSeatmap_error {st : Status} (hp : parseSeatMap bs = .error st) : ownSeatmap n bs s = .error st := by
  unfold ownSeatmap
  rw [hp]

theorem byte_index_toNat (i : Fin 24) : (byte i.val).toNat = i.val := byte_toNat (by omega)

/-- A SEATMAP write that passes every check: the old position cleared, the entry stored and answered (R19, R194). -/
theorem execTblwrSeatmap_stored {tag : Byte} {u : State} (ht : s.takes) (hprot : s.cfs.protects .seatmap = false)
    (hl : bs.length = 4) (hp : parseSeatMap bs = .ok e) (hd : seatDuplicate s.seatmap i e = false)
    (hu : s.rxHunt.unseat s.seatmap[i] = u) (hm : u.seatmap = s.seatmap) :
    exec (.tblwrSeatmap tag (byte i.val) bs) s = .next
      ({ u with seatmap := put s.seatmap i e }.reply tag 0x02 .ok (2 :: byte i.val :: e.bytes)).settle := by
  have hn : Fin.ofNat 24 (byte i.val).toNat = i := by rw [byte_index_toNat, ofNat_fin]
  have hcount : (byte i.val).toNat < TableId.seatmap.count := by rw [byte_index_toNat]; exact i.isLt
  have ho := ownSeatmap_ok (s := s.rxHunt) hn hp hd
  rw [show s.rxHunt.unseat s.rxHunt.seatmap[i] = u from hu, hm] at ho
  have hstored := State.takeWrite_stored (tag := tag) ht hprot hcount hl ho
  have hb : State.entryBytes { u with seatmap := put s.seatmap i e } .seatmap (byte i.val).toNat = e.bytes := by
    show (put s.seatmap i e)[Fin.ofNat 24 (byte i.val).toNat].bytes = _
    simp only [hn]
    exact congrArg SeatMapEntry.bytes (put_get_self ..)
  rw [hb] at hstored
  exact congrArg (fun t : State => Host.Outcome.next t.settle) hstored

end

/-- Settles O14: the three outcomes of the parse and of the duplicate check; where a position is cleared, its own view
alone changes. -/
theorem seatMapWrite : Obligations.SeatMapWrite := by
  intro s tag i v slot seat pos ht hs hprot e out held old c
  have hn : Fin.ofNat 24 (byte i.val).toNat = i := by rw [byte_index_toNat, ofNat_fin]
  have hcount : (byte i.val).toNat < TableId.seatmap.count := by rw [byte_index_toNat]; exact i.isLt
  have hparse : v = 0 ∨ ¬out → parseSeatMap [v, slot, seat, pos] = .ok e := by
    intro h
    by_cases hv : v = 0
    · subst hv; rfl
    · rw [parseSeatMap_valid hv, if_neg (h.resolve_left hv)]
      exact congrArg Except.ok (if_neg hv).symm
  have hfree : v = 0 ∨ (¬out ∧ ¬held) → seatDuplicate s.seatmap i e = false := by
    intro h
    rw [Bool.eq_false_iff]
    intro hd
    obtain ⟨hvalid, hheld⟩ := seatDuplicate_iff.mp hd
    rcases h with hv | ⟨-, hn⟩
    · rw [show e = SeatMapEntry.invalid from if_pos hv] at hvalid
      exact absurd hvalid (by decide)
    · exact hn hheld
  have hrefuse : ∀ {st : Status}, ownSeatmap (byte i.val).toNat [v, slot, seat, pos] s.rxHunt = .error st →
      exec c s = .next (s.answered tag 0x02 st [2, byte i.val]) := fun ho =>
    congrArg Host.Outcome.next (State.takeWrite_refused ht hs hprot hcount rfl ho)
  have hstore : (v = 0 ∨ (¬out ∧ ¬held)) → ∀ {u : State}, s.rxHunt.unseat old = u → u.seatmap = s.seatmap →
      exec c s = .next ({ u with seatmap := put s.seatmap i e }.reply tag 0x02 .ok
        (2 :: byte i.val :: e.bytes)).settle := fun hok =>
    execTblwrSeatmap_stored ht hprot rfl (hparse (hok.imp_right And.left)) (hfree hok)
  refine ⟨fun hv ho => hrefuse (ownSeatmap_error ?_), fun hv ho hh => ?_, fun hok hold => ?_,
    fun hok hvalid hseated hpow => ?_⟩
  · rw [parseSeatMap_valid hv]
    exact if_pos ho
  · refine hrefuse (ownSeatmap_duplicate hn (hparse (.inr ho)) (seatDuplicate_iff.mpr ⟨?_, hh⟩))
    rw [show e = _ from if_neg hv]
  · rw [hstore hok (State.unseat_none (s := s.rxHunt) hold) rfl]
    exact congrArg Host.Outcome.next (State.settle_of_settled (State.settled_of_eq hs rfl rfl rfl))
  · rw [hstore hok (State.unseat_some (s := s.rxHunt) hvalid hseated) rfl]
    generalize hu : State.reply { s.rxHunt.clearPos old.pos with seatmap := put s.seatmap i e } tag 0x02 .ok
      (2 :: byte i.val :: e.bytes) = u
    have hwatch : u.pmg.power = .parkWatch → u.pmg.watchSet ≠ [] := by
      rw [← hu]
      exact fun h => absurd h hpow
    have hview : ∀ q, u.view q = (s.clearPos old.pos).view q := fun q => by rw [← hu]; rfl
    have hreq : ∀ q : Pos, u.chd.requests[q] = s.chd.requests[q] := fun q => by rw [← hu]; rfl
    have hpmg : u.settle.pmg = { s.pmg with watchSet := s.pmg.watchSet.filter fun q => q ≠ old.pos } := by
      rw [State.settle_eq_deliver hwatch, deliver_shape u, ← hu]
      rfl
    refine ⟨u.settle, rfl, ?_, hpmg, fun hsound => ?_, fun q hq => ?_⟩
    · have ha : u.around = ({ s with seatmap := put s.seatmap i e }.answered tag 0x02 .ok
          (2 :: byte i.val :: e.bytes)).around := by rw [← hu]; rfl
      refine (State.settle_of_views ha hs.1 hpow).trans ?_
      rw [hpmg]
      generalize u.settle.chd = x, u.settle.free = n
      rw [← hu]
      rfl
    · rw [State.settle_requests hwatch, hview, State.clearPos_view_self]
      show (((s.view old.pos).events ++ s.positions[old.pos].rem.leave.map _).getLast?.map _).getD _ = _
      rw [State.events_of_settled hs, Reminder.leave_of_sounding hsound]
      rfl
    · rw [State.settle_requests hwatch, hview, State.clearPos_view_ne _ hq, State.events_of_settled hs]
      exact hreq q

end Sys2Proof.Machine
end

section
/-! SUPPORT. A POSCFG write: the checks of an entry, and the position seeded again. -/

namespace Sys2Proof.Machine

/-! ### The checks (R20, R21) -/

section
variable {bs : List Byte} {c : PosCfg}

theorem thresholdInRange_iff {n : Nat} : thresholdInRange n = true ↔ 1 ≤ n ∧ n ≤ 16240 := by
  simp [thresholdInRange]

theorem PosCfg.ordered_iff : c.ordered = true ↔ c.tObj < c.tSmall ∧ c.tSmall < c.tAdult ∧ c.hyst < c.tObj := by
  simp [PosCfg.ordered, and_assoc]

/-- The entry that a POSCFG write carries, each clamped field at its nearest end (R20). -/
def posCfgOf (bs : List Byte) : PosCfg :=
  { offsets := Vector.ofFn fun i => Fin.ofNat 256 (u8 bs i.val), gain := within 32 127 (u8 bs 8)
    tCell := u16 bs 9, tObj := u16 bs 11, tSmall := u16 bs 13, tAdult := u16 bs 15, hyst := u16 bs 17
    shift := Fin.ofNat 4 (u8 bs 19), upConfirm := within 1 15 (u8 bs 20)
    downConfirm := within 1 15 (u8 bs 21), profile := Fin.ofNat 4 (u8 bs 22)
    watchEligible := u8 bs 23 ≠ 0 }

/-- The fields of a POSCFG entry that are refused out of range lie in it (R20). -/
abbrev posCfgInRange (bs : List Byte) : Prop :=
  u16 bs 9 ≤ 1023 ∧ (1 ≤ u16 bs 11 ∧ u16 bs 11 ≤ 16240) ∧ (1 ≤ u16 bs 13 ∧ u16 bs 13 ≤ 16240) ∧
    (1 ≤ u16 bs 15 ∧ u16 bs 15 ≤ 16240) ∧ u16 bs 17 ≤ 1023 ∧ u8 bs 19 ≤ 3 ∧ u8 bs 22 ≤ 3

theorem flagAt_eq (bs : List Byte) (i : Nat) : flagAt bs i = decide (u8 bs i ≠ 0) := by
  unfold flagAt byteFlag u8
  rw [decide_eq_decide, ne_eq, ne_eq, ← BitVec.toNat_inj]
  rfl

theorem parsePosCfg_eq (bs : List Byte) :
    parsePosCfg bs = if posCfgInRange bs then if (posCfgOf bs).ordered then .ok (posCfgOf bs) else .error .order
      else .error .range := by
  have hrange : ¬posCfgInRange bs ↔ 1023 < u16 bs 9 ∨ (!thresholdInRange (u16 bs 11)) = true ∨
      (!thresholdInRange (u16 bs 13)) = true ∨ (!thresholdInRange (u16 bs 15)) = true ∨ 1023 < u16 bs 17 ∨
        3 < u8 bs 19 ∨ 3 < u8 bs 22 := by
    simp only [posCfgInRange, Bool.not_eq_true', Bool.eq_false_iff, ne_eq, thresholdInRange_iff]
    omega
  have he : posCfgOf bs =
      { offsets := Vector.ofFn fun i => Fin.ofNat 256 (u8 bs i.val), gain := clamp 32 127 (u8 bs 8),
        tCell := u16 bs 9, tObj := u16 bs 11, tSmall := u16 bs 13, tAdult := u16 bs 15, hyst := u16 bs 17,
        shift := Fin.ofNat 4 (u8 bs 19), upConfirm := clamp 1 15 (u8 bs 20),
        downConfirm := clamp 1 15 (u8 bs 21), profile := Fin.ofNat 4 (u8 bs 22),
        watchEligible := flagAt bs 23 } := by
    rw [flagAt_eq]
    rfl
  unfold parsePosCfg
  by_cases h : posCfgInRange bs
  · rw [if_pos h, if_neg (fun e => hrange.mpr e h), he]
  · rw [if_neg h, if_pos (hrange.mp h)]

/-! ### The write (R23, R152) -/

variable {s : State} {n : Nat} {p : Pos}

/-- A POSCFG entry stored, with its position seeded again and its reminder evaluated (R23, R152). -/
def State.posCfgStored (s : State) (p : Pos) (c : PosCfg) : State :=
  (({ s with poscfg := put s.poscfg p c }).setPos p s.positions[p].reseed).evalAt p

theorem ownPoscfg_ok (hn : Fin.ofNat 16 n = p) (hp : parsePosCfg bs = .ok c) :
    ownPoscfg n bs s = .ok (s.posCfgStored p c) := by
  subst hn
  unfold ownPoscfg
  rw [hp]
  rfl

theorem ownPoscfg_error {st : Status} (hp : parsePosCfg bs = .error st) : ownPoscfg n bs s = .error st := by
  unfold ownPoscfg
  rw [hp]

theorem State.posCfgStored_view_ne (s : State) {p q : Pos} (c : PosCfg) (h : q ≠ p) :
    (s.posCfgStored p c).view q = s.view q :=
  (State.applyReminder_view_ne _ h _).trans (State.setPos_view_ne _ _ h)

theorem State.posCfgStored_record (s : State) (p : Pos) (c : PosCfg) :
    (s.posCfgStored p c).positions[p] = s.positions[p].reseed.reminded
      (evaluate { s.remInputs p with profile := s.profiles[c.profile] } s.positions[p].rem).1 := by
  have hself : ({ s with poscfg := put s.poscfg p c }.setPos p s.positions[p].reseed).positions[p] =
      s.positions[p].reseed := put_get_self ..
  have hprofile : State.profileOf { s with poscfg := put s.poscfg p c } p = s.profiles[c.profile] := by
    unfold State.profileOf
    simp
  refine (congrArg PosView.record (State.applyReminder_view_self _ p _)).trans ?_
  show Position.reminded _ _ = _
  rw [State.setPos_view_self, State.setPos_remInputs, hself]
  unfold State.remInputs
  rw [hprofile]
  rfl

end

/-- Settles O15: the two checks in their order, then the written position by its record and every other by its view. -/
theorem posCfgWrite : Obligations.PosCfgWrite := by
  intro s tag p bs c ht hs hprot hl hc inRange ordered cmd
  replace hc : c = posCfgOf bs := hc
  subst hc
  have hi : (byte p.val).toNat = p.val := byte_toNat (by omega)
  have hn : Fin.ofNat 16 (byte p.val).toNat = p := by rw [hi, ofNat_fin]
  have hcount : (byte p.val).toNat < TableId.poscfg.count := by rw [hi]; exact p.isLt
  have hparse := parsePosCfg_eq bs
  have hrefuse : ∀ {st : Status}, parsePosCfg bs = .error st →
      exec cmd s = .next (s.answered tag 0x02 st [3, byte p.val]) := fun ho =>
    congrArg Host.Outcome.next (State.takeWrite_refused ht hs hprot hcount hl (ownPoscfg_error ho))
  refine ⟨fun h => hrefuse (hparse.trans (if_neg h)), fun h ho => hrefuse ?_, fun h ho => ?_⟩
  · replace h : posCfgInRange bs := h
    rw [hparse, if_pos h, if_neg (fun e => ho (PosCfg.ordered_iff.mp e))]
  · replace h : posCfgInRange bs := h
    rw [if_pos h, if_pos (PosCfg.ordered_iff.mpr ho)] at hparse
    have hstored := State.takeWrite_stored (tag := tag) ht hprot hcount hl (ownPoscfg_ok (s := s.rxHunt) hn hparse)
    have hb : (s.rxHunt.posCfgStored p (posCfgOf bs)).entryBytes .poscfg (byte p.val).toNat = (posCfgOf bs).bytes := by
      show (put s.poscfg p (posCfgOf bs))[Fin.ofNat 16 (byte p.val).toNat].bytes = _
      simp only [hn]
      exact congrArg PosCfg.bytes (put_get_self ..)
    rw [hb] at hstored
    generalize hu : (s.rxHunt.posCfgStored p (posCfgOf bs)).reply tag 0x02 .ok
      (byte TableId.poscfg.id :: byte p.val :: (posCfgOf bs).bytes) = u at hstored
    have ha : u.around = ({ s with poscfg := put s.poscfg p (posCfgOf bs) }.answered tag 0x02 .ok
        (3 :: byte p.val :: (posCfgOf bs).bytes)).around := by rw [← hu]; rfl
    have hm : u.pmg = s.pmg := by rw [← hu]; rfl
    have hwatch : u.pmg.power = .parkWatch → u.pmg.watchSet ≠ [] := by rw [hm]; exact hs.2
    have hview : ∀ q : Pos, q ≠ p → u.view q = s.view q := fun q hq => by
      rw [← hu]
      exact State.posCfgStored_view_ne s.rxHunt _ hq
    obtain ⟨hpos, hpnd⟩ := State.settle_positions hwatch
    refine ⟨u.settle, congrArg (fun t : State => Host.Outcome.next t.settle) hstored, ?_, ?_, fun q hq => ⟨?_, ?_, ?_⟩⟩
    · rw [hpos, hpnd]
      exact State.settle_of_around ha hm hs.1 hs.2
    · rw [hpos, ← hu]
      exact State.posCfgStored_record s.rxHunt p _
    · rw [hpos]
      exact congrArg PosView.record (hview q hq)
    · rw [hpnd]
      exact congrArg PosView.glyph (hview q hq)
    · rw [State.settle_requests hwatch, hview q hq, State.events_of_settled hs, ← hu]
      rfl

end Sys2Proof.Machine
end

section
/-! SUPPORT. A LOCALCFG write: the clamped entry, the order check, and an unfitted front position cleared. -/

namespace Sys2Proof.Machine

/-! ### Clearing where seated (R4, R19) -/

section
variable {s : State}

theorem State.clearIfSeated_around (s : State) (p : Pos) : (s.clearIfSeated p).around = s.around := by
  unfold State.clearIfSeated
  split <;> rfl

/-- A front position whose fitted flag a LOCALCFG write clears is cleared where seated (R13, R76). -/
def State.clearUnless (s : State) (fitted : Bool) (p : Pos) : State := if fitted then s else s.clearIfSeated p

theorem State.clearUnless_around (s : State) (fitted : Bool) (p : Pos) : (s.clearUnless fitted p).around = s.around := by
  cases fitted
  · exact s.clearIfSeated_around p
  · rfl

theorem State.clearUnless_view_ne (s : State) (fitted : Bool) {p q : Pos} (h : q ≠ p) :
    (s.clearUnless fitted p).view q = s.view q := by
  unfold State.clearUnless State.clearIfSeated
  split
  · rfl
  split
  · rfl
  · exact s.clearPos_view_ne h

theorem State.clearUnless_view_self (s : State) (fitted : Bool) (p : Pos) :
    (s.clearUnless fitted p).view p =
      if s.positions[p].presence ≠ .noSeat ∧ fitted = false then (s.view p).cleared p else s.view p := by
  unfold State.clearUnless State.clearIfSeated
  cases fitted
  · by_cases h : s.positions[p].presence = .noSeat
    · rw [if_neg (by decide), if_pos h, if_neg fun c => c.1 h]
    · rw [if_neg (by decide), if_neg h, if_pos ⟨h, rfl⟩, State.clearPos_view_self]
  · rw [if_pos rfl, if_neg fun c => absurd c.2 (by decide)]

/-- The front positions that are not fitted are cleared where seated, driver first (R13, R76). -/
def State.clearUnfitted (s : State) (fitted0 fitted1 : Bool) : State :=
  (s.clearUnless fitted0 0).clearUnless fitted1 1

/-- Position `p` is the one of a front seat that is not fitted (R13). -/
abbrev unfitted (fitted0 fitted1 : Bool) (p : Pos) : Prop := (p = 0 ∧ fitted0 = false) ∨ (p = 1 ∧ fitted1 = false)

theorem State.clearUnfitted_around (s : State) (fitted0 fitted1 : Bool) :
    (s.clearUnfitted fitted0 fitted1).around = s.around :=
  (State.clearUnless_around _ fitted1 1).trans (s.clearUnless_around fitted0 0)

theorem State.clearUnfitted_view (s : State) (fitted0 fitted1 : Bool) (p : Pos) :
    (s.clearUnfitted fitted0 fitted1).view p =
      if s.positions[p].presence ≠ .noSeat ∧ unfitted fitted0 fitted1 p then (s.view p).cleared p else s.view p := by
  unfold State.clearUnfitted
  by_cases h1 : p = 1
  · subst h1
    have hview : (s.clearUnless fitted0 0).view 1 = s.view 1 := s.clearUnless_view_ne fitted0 (by decide)
    have hpos : (s.clearUnless fitted0 0).positions[(1 : Pos)] = s.positions[(1 : Pos)] := congrArg PosView.record hview
    rw [State.clearUnless_view_self, hview, hpos]
    simp [unfitted]
  · rw [State.clearUnless_view_ne _ _ h1]
    by_cases h0 : p = 0
    · subst h0
      rw [State.clearUnless_view_self]
      simp [unfitted]
    · rw [s.clearUnless_view_ne fitted0 h0, if_neg fun c => c.2.elim (fun e => h0 e.1) fun e => h1 e.1]

theorem State.clearUnless_none {fitted : Bool} {p : Pos} (h : s.positions[p].presence = .noSeat ∨ fitted = true) :
    s.clearUnless fitted p = s := by
  unfold State.clearUnless State.clearIfSeated
  rcases h with h | h
  · rw [if_pos h, ite_self]
  · rw [if_pos h]

theorem State.clearUnfitted_none {fitted0 fitted1 : Bool}
    (h : ∀ p : Pos, ¬(s.positions[p].presence ≠ .noSeat ∧ unfitted fitted0 fitted1 p)) :
    s.clearUnfitted fitted0 fitted1 = s := by
  have hkept : ∀ (p : Pos) (fitted : Bool), (fitted = false → unfitted fitted0 fitted1 p) →
      s.positions[p].presence = .noSeat ∨ fitted = true := by
    intro p fitted hu
    by_contra hc
    obtain ⟨hseat, hfit⟩ := not_or.mp hc
    exact h p ⟨hseat, hu (by simpa using hfit)⟩
  unfold State.clearUnfitted
  rw [State.clearUnless_none (hkept 0 fitted0 fun e => .inl ⟨rfl, e⟩),
    State.clearUnless_none (hkept 1 fitted1 fun e => .inr ⟨rfl, e⟩)]

end

/-! ### The write (R76) -/

/-- The entry that a LOCALCFG write stores, each clamped field at its nearest end (R76). -/
def localCfgOf (b0 b1 b2 b3 b4 b5 : Byte) : LocalCfg :=
  { fitted0 := b0 ≠ 0, fitted1 := b1 ≠ 0, threshold := within 1 1023 (b2.toNat * 256 + b3.toNat)
    hyst := within 0 63 b4.toNat, interval := within 10 100 b5.toNat }

theorem parseLocalCfg_eq (b0 b1 b2 b3 b4 b5 : Byte) :
    parseLocalCfg [b0, b1, b2, b3, b4, b5] =
      if 1023 < (localCfgOf b0 b1 b2 b3 b4 b5).threshold + (localCfgOf b0 b1 b2 b3 b4 b5).hyst then .error .order
      else .ok (localCfgOf b0 b1 b2 b3 b4 b5) := rfl

theorem ownLocalcfg_error {s : State} {n : Nat} {bs : List Byte} {st : Status} (hp : parseLocalCfg bs = .error st) :
    ownLocalcfg n bs s = .error st := by
  unfold ownLocalcfg
  rw [hp]

/-- LOCALCFG's entry replaced. -/
def State.setLocalCfg (s : State) (c : LocalCfg) : State := { s with lsu := { s.lsu with cfg := c } }

theorem ownLocalcfg_ok {s : State} {n : Nat} {bs : List Byte} {c : LocalCfg} (hp : parseLocalCfg bs = .ok c) :
    ownLocalcfg n bs s = .ok ((s.setLocalCfg c).clearUnfitted c.fitted0 c.fitted1) := by
  unfold ownLocalcfg
  rw [hp]
  rfl

/-- Settles O20: the order check, then every position by its view. -/
theorem localCfgWrite : Obligations.LocalCfgWrite := by
  intro s tag b0 b1 b2 b3 b4 b5 ht hs hprot e c clears
  have hparse : parseLocalCfg [b0, b1, b2, b3, b4, b5] =
      if 1023 < e.threshold + e.hyst then .error .order else .ok e := parseLocalCfg_eq b0 b1 b2 b3 b4 b5
  have hcount : (0 : Byte).toNat < TableId.localcfg.count := by decide
  have hstore : e.threshold + e.hyst ≤ 1023 → ∀ u : State,
      (s.rxHunt.setLocalCfg e).clearUnfitted e.fitted0 e.fitted1 = u →
        exec c s = .next (u.reply tag 0x02 .ok (9 :: 0 :: e.bytes)).settle := by
    intro hle u hu
    rw [if_neg (by omega)] at hparse
    have hown := ownLocalcfg_ok (s := s.rxHunt) (n := (0 : Byte).toNat) hparse
    rw [hu] at hown
    have hstored := State.takeWrite_stored (tag := tag) ht hprot hcount (by rfl) hown
    have hb : u.entryBytes .localcfg (0 : Byte).toNat = e.bytes := by
      have ha : u.around = _ := (congrArg State.around hu.symm).trans (State.clearUnfitted_around _ _ _)
      exact congrArg (fun t : State => t.lsu.cfg.bytes) ha
    rw [hb] at hstored
    exact congrArg (fun t : State => Host.Outcome.next t.settle) hstored
  refine ⟨fun h => ?_, fun hle hc => ?_, fun hle hpow => ?_⟩
  · rw [if_pos h] at hparse
    exact congrArg Host.Outcome.next (State.takeWrite_refused ht hs hprot hcount rfl (ownLocalcfg_error hparse))
  · rw [hstore hle _ (State.clearUnfitted_none hc)]
    exact congrArg Host.Outcome.next (State.settle_of_settled (State.settled_of_eq hs rfl rfl rfl))
  · have hview := (s.rxHunt.setLocalCfg e).clearUnfitted_view e.fitted0 e.fitted1
    have hv := (s.rxHunt.setLocalCfg e).clearUnfitted_around e.fitted0 e.fitted1
    have hexec := hstore hle _ rfl
    generalize State.clearUnfitted _ e.fitted0 e.fitted1 = v at hview hv hexec
    generalize hu : v.reply tag 0x02 .ok (9 :: 0 :: e.bytes) = u at hexec
    have ha : u.around = ({ s with lsu := { s.lsu with cfg := e } }.answered tag 0x02 .ok
        (9 :: 0 :: e.bytes)).around := by
      rw [← hu]
      exact congrArg (fun t : State => t.reply tag 0x02 .ok (9 :: 0 :: e.bytes)) hv
    have hclear : ∀ p : Pos, u.view p = if clears p then (s.view p).cleared p else s.view p := fun p => by
      rw [← hu]
      exact hview p
    have hchd : u.chd = s.chd := (congrArg (fun t : State => t.chd) ha :)
    have hwatch : u.pmg.power = .parkWatch → u.pmg.watchSet ≠ [] := fun h =>
      absurd ((congrArg (fun t : State => t.pmg.power) ha).symm.trans h) hpow
    obtain ⟨hpos, hpnd⟩ := State.settle_positions hwatch
    have hw : u.settle.pmg = u.pmg := by rw [State.settle_eq_deliver hwatch, deliver_shape u]
    refine ⟨u.settle, hexec, ?_, fun p => ⟨fun hc => ?_, fun hc => ?_⟩⟩
    · rw [hpos, hpnd, hw]
      exact State.settle_of_views ha hs.1 hpow
    · have h := hclear p
      rw [if_pos hc] at h
      rw [hpos, hpnd]
      exact ⟨congrArg PosView.record h, congrArg PosView.glyph h⟩
    · have h := hclear p
      rw [if_neg hc] at h
      rw [State.settle_requests hwatch, h, hpos, hpnd, State.events_of_settled hs, hchd]
      exact ⟨congrArg PosView.record h, congrArg PosView.glyph h, rfl⟩

end Sys2Proof.Machine
end

section
/-! SUPPORT. The end of a step in PARK_WATCH: the watch goes on, or its last position has left and SLEEP is entered. -/

namespace Sys2Proof.Machine

/-! ### An emptied watch (R176) -/

section
variable {t : State}

theorem State.settle_of_emptied (hp : t.pmg.power = .parkWatch) (hw : t.pmg.watchSet = []) :
    t.settle = (deliver t).asleep := by
  rw [← State.enterSleep_eq]
  have h : (deliver t).pmg = t.pmg := by rw [deliver_shape t]
  exact if_pos ⟨by rw [h]; exact hp, by rw [h]; exact hw⟩

/-- A step that empties the watch or not leaves the records, the replies and the watch set as they are at its end. -/
theorem State.settle_watch (hp : t.pmg.power = .parkWatch) :
    t.settle.positions = t.positions ∧ t.settle.tkp.replies = t.tkp.replies ∧
      t.settle.pmg.watchSet = t.pmg.watchSet := by
  by_cases hw : t.pmg.watchSet = []
  · rw [State.settle_of_emptied hp hw, deliver_shape t]
    exact ⟨rfl, rfl, hw.symm⟩
  · rw [State.settle_eq_deliver fun _ => hw, deliver_shape t]
    exact ⟨rfl, rfl, rfl⟩

theorem State.settle_pmg (hw : t.pmg.power = .parkWatch → t.pmg.watchSet ≠ []) : t.settle.pmg = t.pmg := by
  rw [State.settle_eq_deliver hw, deliver_shape t]

/-- Where the last watched position has left, the machine is asleep (R176, R183). -/
theorem State.settle_sleeps (hp : t.pmg.power = .parkWatch) (hw : t.pmg.watchSet = []) :
    t.settle.pmg.power = .sleep ∧ t.settle.pmg.sub = none ∧ t.settle.chd = Chd.reset ∧
      t.settle.sga.state = .stopped ∧ t.settle.sgb.state = .stopped ∧ t.settle.tkp.rx = .off := by
  rw [State.settle_of_emptied hp hw]
  exact ⟨rfl, rfl, rfl, rfl, rfl, rfl⟩

end

theorem filter_ne_eq_nil {l : List Pos} {p : Pos} : (l.filter fun q => q ≠ p) = [] ↔ ∀ q ∈ l, q = p := by
  simp [List.filter_eq_nil_iff]

/-! ### The driver's local report -/

/-- LSU after the conversion that completes position 0's group (R70, R73). -/
def Lsu.groupDone (l : Lsu) (n : Count) (cs : List Channel) : Lsu :=
  { l with results := put l.results Channel.bkl0.index n, remaining := cs, seq0 := l.seq0 + 1 }

/-- The ninth conversion of position 0's group brings the driver's local report (R71). -/
theorem execConversion_report0 {s : State} (n : Count) (a b : Bool) {cs : List Channel}
    (hr : s.lsu.remaining = .bkl0 :: cs) (hf : s.lsu.cfg.fitted0 = true) (hcs : cs ≠ []) :
    exec (.conversionComplete n a b) s = .next
      (State.takeBlock { s with lsu := s.lsu.groupDone n cs } 0 .loc (s.lsu.groupDone n cs).report0).settle := by
  have hne : ¬s.lsu.remaining = [] := by rw [hr]; exact List.cons_ne_nil _ _
  refine congrArg Host.Outcome.next ((if_neg hne).trans (congrArg State.settle ?_))
  unfold State.conversion
  rw [hr]
  dsimp only
  rw [if_neg (fun e => hcs e.1)]
  unfold State.afterConversion
  dsimp only
  rw [if_pos hf]
  rfl

/-- Settles O52: the clearing and the class change each take the position out of the watch set, and the end of the step
enters SLEEP where the set is empty. -/
theorem lastWatchedPositionSleeps : Obligations.LastWatchedPositionSleeps := by
  refine ⟨fun s tag b1 b2 b3 i p ht hs hp hprot hvalid hpos hseated => ?_, fun s n a b cs hs hp hr hf hcs => ?_⟩
  · subst hpos
    have hexec := execTblwrSeatmap_stored (tag := tag) (i := i) ht hprot (by rfl) (parseSeatMap_invalid b1 b2 b3)
      (by rfl) (State.unseat_some (s := s.rxHunt) hvalid hseated) rfl
    generalize hold : s.seatmap[i].pos = p at hexec ⊢
    generalize hu : State.reply { s.rxHunt.clearPos p with seatmap := _ } tag 0x02 .ok _ = u at hexec
    have hpower : u.pmg.power = .parkWatch := by rw [← hu]; exact hp
    have hset : u.pmg.watchSet = s.pmg.watchSet.filter fun q => q ≠ p := by rw [← hu]; rfl
    obtain ⟨h1, h2, h3⟩ := State.settle_watch hpower
    refine ⟨u.settle, hexec, ?_, ?_, h3.trans hset, fun hq => ?_, fun hq => ?_⟩
    · rw [h1, ← hu]; rfl
    · rw [h2, ← hu]; rfl
    · have hw : u.pmg.watchSet ≠ [] := by
        rw [hset, ne_eq, filter_ne_eq_nil]
        exact fun h => hq.elim fun q hq => hq.2 (h q hq.1)
      rw [State.settle_pmg fun _ => hw, ← hu]
      rfl
    · exact State.settle_sleeps hpower (by rw [hset]; exact filter_ne_eq_nil.mpr hq)
  · have hexec := execConversion_report0 n a b hr hf hcs
    generalize hu : ({ s with lsu := s.lsu.groupDone n cs } : State) = u at hexec
    generalize (s.lsu.groupDone n cs).report0 = r at hexec
    have hcls : u.positions[(0 : Pos)].cls = s.positions[(0 : Pos)].cls := by rw [← hu]
    have hpmg := u.takeBlock_watchSet 0 .loc r
    rw [hcls, show u.pmg = s.pmg by rw [← hu]] at hpmg
    have hrec : (u.takeBlock 0 .loc r).positions[(0 : Pos)] = u.blockTaken 0 .loc r := by
      rw [State.takeBlock_positions]
      exact put_get_self ..
    generalize u.blockTaken 0 .loc r = new at hpmg hrec
    generalize u.takeBlock 0 .loc r = v at hexec hpmg hrec
    have hpower : v.pmg.power = .parkWatch := by
      rw [hpmg]
      split <;> exact hp
    obtain ⟨h1, -, h3⟩ := State.settle_watch hpower
    refine ⟨v.settle, hexec, fun hleaves hne => ?_, fun hstays => ?_⟩
    · rw [h1, hrec] at hleaves hne
      have hl : new.cls.leavesWatch = true := by
        rcases hleaves with e | e | e <;> rw [e] <;> rfl
      rw [if_pos ⟨hne, hl⟩] at hpmg
      have hset : v.pmg.watchSet = s.pmg.watchSet.filter fun q => q ≠ 0 := by rw [hpmg]
      refine ⟨h3.trans hset, fun hq => ?_, fun hq => ?_⟩
      · exact (State.settle_sleeps hpower (by rw [hset]; exact filter_ne_eq_nil.mpr hq)).1
      · have hw : v.pmg.watchSet ≠ [] := by
          rw [hset, ne_eq, filter_ne_eq_nil]
          exact fun h => hq.elim fun q hq => hq.2 (h q hq.1)
        rw [State.settle_pmg fun _ => hw]
        exact hpower
    · rw [h1, hrec] at hstays
      have hl : ¬(new.cls ≠ s.positions[(0 : Pos)].cls ∧ new.cls.leavesWatch = true) := by
        rintro ⟨hne, hl⟩
        rcases hstays with e | e | e | e | e
        · exact hne e
        all_goals rw [e] at hl; exact absurd hl (by decide)
      rw [if_neg hl] at hpmg
      rw [State.settle_pmg fun h => by rw [hpmg]; exact hs.2 hp, hpmg]

end Sys2Proof.Machine
end

section
/-! SUPPORT. Slots lost: what the loss of one slot and of every ACTIVE slot of a segment does to the positions, and that
it changes nothing else. -/

namespace Sys2Proof.Machine

/-! ### Records answered -/

/-- With no record picked, answering changes nothing. -/
theorem Segment.answer_none {g : Segment} {pick : PassRecord → Bool} {st : AnswerStatus} {body : List Byte}
    (h : ∀ r ∈ g.records, pick r = false) : g.answer pick st body = g := by
  unfold Segment.answer
  rw [answerAll_none h]

/-- No record of the segment waits for a poll (R99). -/
abbrev Segment.unqueued (g : Segment) : Prop := ∀ r ∈ g.records, r.state ≠ .queued

theorem Segment.dropSlot_of_unqueued {g : Segment} (h : g.unqueued) (i : Slot) : g.dropSlot i = g :=
  Segment.answer_none fun r hr => by simp [h r hr]

theorem Segment.answerQueued_of_unqueued {g : Segment} (h : g.unqueued) (st : AnswerStatus) : g.answerQueued st = g :=
  Segment.answer_none fun r hr => by simp [h r hr]

theorem Segment.checkWalk_of_unqueued {g : Segment} (h : g.unqueued) : g.checkWalk = g :=
  Segment.answer_none fun r hr => by simp [h r hr]

/-- A record after the answering is one that was answered, or one that was not picked. -/
theorem mem_answerAll {pick : PassRecord → Bool} {st : AnswerStatus} {body : List Byte} {n : Nat} {rs : List PassRecord}
    {q : PassRecord} (h : q ∈ answerAll pick st body n rs) :
    (∃ k, q.state = .answered st body k) ∨ (q ∈ rs ∧ pick q = false) := by
  induction rs generalizing n with
  | nil => cases h
  | cons r rs ih =>
    unfold answerAll at h
    split at h
    · rcases List.mem_cons.mp h with rfl | h
      · exact .inl ⟨n, rfl⟩
      · exact (ih h).imp_right fun ⟨a, b⟩ => ⟨List.mem_cons_of_mem _ a, b⟩
    · rename_i hr
      rcases List.mem_cons.mp h with rfl | h
      · exact .inr ⟨List.mem_cons_self .., by simpa using hr⟩
      · exact (ih h).imp_right fun ⟨a, b⟩ => ⟨List.mem_cons_of_mem _ a, b⟩

theorem Segment.answerQueued_unqueued (g : Segment) (st : AnswerStatus) : (g.answerQueued st).unqueued := by
  intro q hq
  rcases mem_answerAll hq with ⟨k, e⟩ | ⟨-, e⟩
  · rw [e]; exact fun h => by cases h
  · simpa using e

/-! ### Fields that the views do not show -/

section
variable {t u : State} (h : t.around = u.around)
include h

theorem State.seg_of_around (g : Seg) : t.seg g = u.seg g := by
  cases g
  · exact (congrArg State.sga h :)
  · exact (congrArg State.sgb h :)

theorem State.profiles_of_around : t.profiles = u.profiles := (congrArg State.profiles h :)

theorem State.poscfg_of_around : t.poscfg = u.poscfg := (congrArg State.poscfg h :)

theorem State.node_of_around : t.node = u.node := (congrArg State.node h :)

theorem State.power_of_around : t.pmg.power = u.pmg.power := (congrArg (fun s : State => s.pmg.power) h :)

theorem State.ignition_of_around : t.pmg.ignition = u.pmg.ignition := (congrArg (fun s : State => s.pmg.ignition) h :)

theorem State.moving_of_around : t.pmg.moving = u.pmg.moving := (congrArg (fun s : State => s.pmg.moving) h :)

end

/-! ### Segments replaced -/

section
variable (s : State) (g : Seg)

@[simp] theorem State.setSeg_setSeg (x y : Segment) : (s.setSeg g x).setSeg g y = s.setSeg g y := by cases g <;> rfl

theorem State.modSeg_eq (f : Segment → Segment) : s.modSeg g f = s.setSeg g (f (s.seg g)) := rfl

theorem State.setSeg_view (x : Segment) (q : Pos) : (s.setSeg g x).view q = s.view q := by cases g <;> rfl

theorem State.setSeg_remInputs (x : Segment) (q : Pos) : (s.setSeg g x).remInputs q = s.remInputs q := by cases g <;> rfl

theorem State.setSlot_view (i : Slot) (r : SlotRec) (q : Pos) : (s.setSlot i r).view q = s.view q := rfl

end

/-! ### One slot lost (R124) -/

section
variable {s : State} {g : Seg} {i : Slot}

/-- What a position shows after the loss of the slot that feeds it (R10). -/
def State.lostView (s : State) (q : Pos) : PosView := (s.view q).lost q (s.remInputs q)

/-- A lost position cannot be lost again (R10). -/
theorem State.lostPosition_not_losable (s : State) (q : Pos) (i : Slot) : (s.lostPosition q).losable i = false := by
  unfold Position.losable
  rw [show (s.lostPosition q).presence = .sourceLost from rfl]
  exact Bool.and_false _

/-- What the loss of a position reads: its own view, and the inputs that no slot or segment holds. -/
theorem State.lostView_congr {t u : State} {q : Pos} (hv : t.view q = u.view q) (hi : t.pmg.ignition = u.pmg.ignition)
    (hm : t.pmg.moving = u.pmg.moving) (hp : t.profiles = u.profiles) (hc : t.poscfg = u.poscfg) :
    t.lostView q = u.lostView q := by
  have hr : t.positions[q] = u.positions[q] := congrArg PosView.record hv
  unfold State.lostView State.remInputs State.profileOf
  rw [hv, hr, hi, hm, hp]
  simp only [hc]

theorem State.dropRecords_of (h : s.slots[i].lastSeg = some g) : s.dropRecords i = s.modSeg g fun x => x.dropSlot i := by
  unfold State.dropRecords
  rw [h]

/-- A slot lost: its QUEUED records answered in its segment, its record LOST, the positions it feeds lost, and nothing
else (R102, R124). -/
theorem State.loseSlot_spec (h : s.slots[i].lastSeg = some g) :
    (s.loseSlot i).around = ({ s.modSeg g (fun x => x.dropSlot i) with slots := (s.loseSlot i).slots } : State).around ∧
      (s.loseSlot i).pmg = s.pmg ∧
        ∀ q, (s.loseSlot i).view q = if s.positions[q].losable i then s.lostView q else s.view q := by
  have hd := State.dropRecords_of h
  have hp : (s.dropRecords i).positions = s.positions := by rw [hd]; exact State.modSeg_positions ..
  have hpmg : (s.dropRecords i).pmg = s.pmg := by rw [hd]; exact State.modSeg_pmg ..
  have hv : ∀ q, (s.dropRecords i).view q = s.view q := fun q => by rw [hd]; exact State.setSeg_view ..
  have hi : ∀ q, (s.dropRecords i).remInputs q = s.remInputs q := fun q => by rw [hd]; exact State.setSeg_remInputs ..
  obtain ⟨h1, h2, h3⟩ := (s.dropRecords i).loseFedBy_spec i
  have hlose : ∃ r, s.loseSlot i = ((s.dropRecords i).loseFedBy i).setSlot i r := ⟨_, rfl⟩
  obtain ⟨r, hr⟩ := hlose
  rw [hr]
  generalize (s.dropRecords i).loseFedBy i = t at h1 h2 h3 ⊢
  refine ⟨?_, ?_, fun q => ?_⟩
  · rw [← hd]
    exact congrArg (fun u : State => { u with slots := put t.slots i r }) h1
  · exact h2.trans hpmg
  · rw [t.setSlot_view, h3 q, hp, hv, hi]
    rfl

/-! ### A segment's slots lost (R127) -/

/-- A slot that the loss of a segment takes to LOST (R127). -/
abbrev State.goes (s : State) (g : Seg) (i : Slot) : Prop := s.slots[i].state = .active ∧ s.slots[i].lastSeg = some g

/-- The loss of one ACTIVE slot of a segment with no QUEUED record, as one step of the loss of the segment. -/
theorem State.loseSlot_goes (h : s.goes g i) (hq : (s.seg g).unqueued) :
    (s.loseSlot i).around = ({ s with slots := (s.loseSlot i).slots } : State).around ∧ (s.loseSlot i).pmg = s.pmg ∧
      (∀ q, (s.loseSlot i).view q = if s.positions[q].losable i then s.lostView q else s.view q) ∧
        ∀ j, (s.loseSlot i).goes g j ↔ j ≠ i ∧ s.goes g j := by
  obtain ⟨h1, h2, h3⟩ := State.loseSlot_spec h.2
  rw [State.modSeg_eq, Segment.dropSlot_of_unqueued hq, State.setSeg_self] at h1
  refine ⟨h1, h2, h3, fun j => ?_⟩
  unfold State.goes
  by_cases e : j = i
  · subst e
    have hs : (s.loseSlot j).slots[j] = s.slots[j].gone := by
      simp only [State.loseSlot_slots]
      exact put_get_self ..
    rw [hs]
    exact ⟨fun c => absurd c.1 (by simp [SlotRec.gone]), fun c => absurd rfl c.1⟩
  · have hs : (s.loseSlot i).slots[j] = s.slots[j] := by
      simp only [State.loseSlot_slots]
      exact put_get_ne _ _ e
    rw [hs]
    exact ⟨fun c => ⟨e, c⟩, fun c => c.2⟩

/-- The loss of a segment with no QUEUED record changes slots, and the positions that a lost slot feeds (R10, R127). -/
theorem State.loseSegment_spec (hq : (s.seg g).unqueued) :
    (s.loseSegment g).around = ({ s with slots := (s.loseSegment g).slots } : State).around ∧
      (s.loseSegment g).pmg = s.pmg ∧
        ∀ q, ((∃ i, s.goes g i ∧ s.positions[q].losable i = true) → (s.loseSegment g).view q = s.lostView q) ∧
          ((∀ i, s.goes g i → s.positions[q].losable i = false) → (s.loseSegment g).view q = s.view q) := by
  have key : ∀ (is : List Slot) (s : State), (s.seg g).unqueued →
      let t := is.foldl (fun t i => if t.slots[i].state = .active ∧ t.slots[i].lastSeg = some g then t.loseSlot i else t) s
      t.around = ({ s with slots := t.slots } : State).around ∧ t.pmg = s.pmg ∧
        ∀ q, ((∃ i ∈ is, s.goes g i ∧ s.positions[q].losable i = true) → t.view q = s.lostView q) ∧
          ((∀ i ∈ is, s.goes g i → s.positions[q].losable i = false) → t.view q = s.view q) := by
    intro is
    induction is with
    | nil => exact fun s _ => ⟨rfl, rfl, fun q => ⟨fun ⟨i, hi, _⟩ => absurd hi (by simp), fun _ => rfl⟩⟩
    | cons j js ih =>
      intro s hq
      rw [List.foldl_cons]
      by_cases hj : s.goes g j
      · rw [if_pos hj]
        obtain ⟨a1, a2, a3, a4⟩ := State.loseSlot_goes hj hq
        generalize s.loseSlot j = u at a1 a2 a3 a4 ⊢
        have hseg : u.seg g = s.seg g := (State.seg_of_around a1 g).trans (by cases g <;> rfl)
        obtain ⟨b1, b2, b3⟩ := ih u (by rw [hseg]; exact hq)
        generalize List.foldl _ u js = t at b1 b2 b3 ⊢
        refine ⟨b1.trans (congrArg (fun x : State => { x with slots := t.slots }) a1), b2.trans a2, fun q => ?_⟩
        have hview := a3 q
        by_cases hl : s.positions[q].losable j = true
        · rw [if_pos hl] at hview
          have hrec : u.positions[q] = s.lostPosition q := congrArg PosView.record hview
          have hstay : t.view q = s.lostView q :=
            ((b3 q).2 fun i _ _ => by rw [hrec]; exact s.lostPosition_not_losable q i).trans hview
          exact ⟨fun _ => hstay, fun h => absurd hl (by rw [h j (List.mem_cons_self ..) hj]; decide)⟩
        · rw [if_neg hl] at hview
          have hrec : u.positions[q] = s.positions[q] := congrArg PosView.record hview
          have hlost : u.lostView q = s.lostView q :=
            State.lostView_congr hview (by rw [a2]) (by rw [a2]) (State.profiles_of_around a1 :)
              (State.poscfg_of_around a1 :)
          refine ⟨fun ⟨i, hi, hg, hli⟩ => ?_, fun h => ?_⟩
          · have hne : i ≠ j := fun e => hl (e ▸ hli)
            rw [← hlost]
            exact (b3 q).1 ⟨i, (List.mem_cons.mp hi).resolve_left hne, (a4 i).mpr ⟨hne, hg⟩, by rw [hrec]; exact hli⟩
          · refine ((b3 q).2 fun i hi hg => ?_).trans hview
            rw [hrec]
            exact h i (List.mem_cons_of_mem _ hi) ((a4 i).mp hg).2
      · rw [if_neg hj]
        obtain ⟨b1, b2, b3⟩ := ih s hq
        refine ⟨b1, b2, fun q => ⟨fun ⟨i, hi, hg, hli⟩ => ?_, fun h => ?_⟩⟩
        · rcases List.mem_cons.mp hi with rfl | hi
          · exact absurd hg hj
          · exact (b3 q).1 ⟨i, hi, hg, hli⟩
        · exact (b3 q).2 fun i hi => h i (List.mem_cons_of_mem _ hi)
  obtain ⟨h1, h2, h3⟩ := key (List.finRange 16) s hq
  refine ⟨h1, h2, fun q => ⟨fun ⟨i, hi⟩ => (h3 q).1 ⟨i, List.mem_finRange i, hi⟩, fun h => (h3 q).2 fun i _ => h i⟩⟩

/-- The loss of a segment left with no QUEUED record, by the state before the segment changed (R127). -/
theorem State.loseSegment_setSeg_spec {x : Segment} (hx : x.unqueued) :
    ((s.setSeg g x).loseSegment g).around =
        ({ s.setSeg g x with slots := ((s.setSeg g x).loseSegment g).slots } : State).around ∧
      ((s.setSeg g x).loseSegment g).pmg = s.pmg ∧
        (∀ i : Slot, ((s.setSeg g x).loseSegment g).slots[i] = if s.goes g i then s.slots[i].gone else s.slots[i]) ∧
          ∀ q, ((∃ i, s.goes g i ∧ s.positions[q].losable i = true) →
              ((s.setSeg g x).loseSegment g).view q = s.lostView q) ∧
            ((∀ i, s.goes g i → s.positions[q].losable i = false) →
              ((s.setSeg g x).loseSegment g).view q = s.view q) := by
  obtain ⟨h1, h2, h3⟩ := State.loseSegment_spec (s := s.setSeg g x) (g := g) (by rw [State.setSeg_seg]; exact hx)
  have hslots := (s.setSeg g x).loseSegment_slots g
  have hlost : ∀ q, (s.setSeg g x).lostView q = s.lostView q := fun q => by
    unfold State.lostView
    rw [State.setSeg_view, State.setSeg_remInputs]
  unfold State.goes at h3
  simp only [State.setSeg_slots, State.setSeg_positions, State.setSeg_view, hlost, State.setSeg_pmg] at h2 h3 hslots
  exact ⟨h1, h2, hslots, h3⟩

end

end Sys2Proof.Machine
end

section
/-! SUPPORT. A SEGCFG write: the segment as the entry leaves it, and the stop of a segment. -/

namespace Sys2Proof.Machine

/-! ### The segment (R85, R90, R98) -/

section
variable (x : Segment) (c : SegCfg)

/-- The segment as a SEGCFG write that enables it leaves it, its records aside (R85, R90, R98). -/
def Segment.enabledBy : Segment :=
  { x with
    cfg := c
    state := if x.state = .idle ∨ x.state = .stopped then .running else x.state
    pointer := if x.state = .idle ∨ x.state = .stopped then c.head else x.pointer
    headMoved := if x.state = .idle ∨ x.state = .stopped then false else x.headMoved || c.head ≠ x.cfg.head }

theorem Segment.enableNow_storeCfg : (x.storeCfg c).enableNow = x.enabledBy c := by
  unfold Segment.enableNow Segment.storeCfg Segment.endIdle Segment.enabledBy
  cases h : x.state <;> simp

theorem Segment.storeCfg_of_not_idle (h : x.state ≠ .idle) :
    x.storeCfg c = { x with cfg := c, headMoved := x.headMoved || c.head ≠ x.cfg.head } := by
  unfold Segment.storeCfg Segment.endIdle
  exact if_neg h

/-- A segment whose enable is clear stops: QUEUED records SEGMENT_OFF, the probe timer, the pass and a frame in
reception gone (R98). -/
def Segment.stop : Segment :=
  { x.answerQueued .segmentOff with state := .stopped, probe := false, pass := none, reception := .none }

theorem Segment.stop_unqueued : x.stop.unqueued := x.answerQueued_unqueued .segmentOff

/-- Stopping answers every QUEUED record (R98). -/
theorem Segment.answerQueued_queuedAnswered (st : AnswerStatus) :
    queuedAnswered st (fun _ => true) x.records (x.answerQueued st).records := by
  have h := queuedAnswered_answer x st fun _ => true
  simp only [Bool.and_true] at h
  exact h

/-- The segment as a SEGCFG write that stops it leaves it (R85, R90, R98). -/
theorem Segment.stop_storeCfg :
    (x.storeCfg c).stop = { x with
      cfg := c, records := (x.answerQueued .segmentOff).records, state := .stopped, probe := false, pass := none
      reception := .none
      pointer := if x.state = .idle then c.head else x.pointer
      headMoved := if x.state = .idle then false else x.headMoved || c.head ≠ x.cfg.head } := by
  unfold Segment.stop Segment.storeCfg Segment.endIdle Segment.answerQueued Segment.answer
  cases h : x.state <;> simp

/-- Records answered NOT_PRESENT because no walk slot is theirs (R102). -/
theorem Segment.checkWalk_queuedAnswered :
    queuedAnswered .notPresent (fun r => r.slot ∉ x.walkSlots) x.records x.checkWalk.records :=
  queuedAnswered_answer x .notPresent fun r => decide (r.slot ∉ x.walkSlots)

end

/-! ### The write (R84, R85) -/

section
variable {s : State} {g : Seg} {c : SegCfg}

theorem State.writeSegCfg_enabled (h : c.enable = true) :
    s.writeSegCfg g c = s.setSeg g ((s.seg g).enabledBy c).checkWalk := by
  unfold State.writeSegCfg
  dsimp only
  rw [if_pos h]
  simp only [State.modSeg_eq, State.setSeg_setSeg, State.setSeg_seg, Segment.enableNow_storeCfg]

/-- With a poll outstanding the poll runs on (R98). -/
theorem State.writeSegCfg_polling (h : c.enable = false) (hp : (s.seg g).poll.isSome) (hs : (s.seg g).state = .running) :
    s.writeSegCfg g c = s.setSeg g ((s.seg g).storeCfg c).checkWalk := by
  have hx := (s.seg g).storeCfg_of_not_idle c (by rw [hs]; decide)
  have hpoll : ((s.seg g).storeCfg c).poll ≠ none := by
    rw [hx]
    exact Option.isSome_iff_ne_none.mp hp
  unfold State.writeSegCfg
  dsimp only
  rw [if_neg (by rw [h]; decide), if_neg (fun e => hpoll (by simpa using e.2))]
  simp only [State.modSeg_eq, State.setSeg_setSeg, State.setSeg_seg]

theorem State.stopSegment_eq : s.stopSegment g = (s.setSeg g (s.seg g).stop).loseSegment g := rfl

theorem State.stopSegment_seg : (s.stopSegment g).seg g = (s.seg g).stop := by
  have h := (State.loseSegment_spec (s := s.setSeg g (s.seg g).stop) (g := g)
    (by rw [State.setSeg_seg]; exact Segment.stop_unqueued _)).1
  refine (State.seg_of_around h g).trans ?_
  cases g <;> rfl

theorem State.writeSegCfg_stopped (h : c.enable = false) (hp : (s.seg g).poll = none) (hs : (s.seg g).state ≠ .stopped) :
    s.writeSegCfg g c = (s.setSeg g ((s.seg g).storeCfg c).stop).loseSegment g := by
  have hx : ((s.seg g).storeCfg c).state ≠ .stopped ∧ ((s.seg g).storeCfg c).poll = none := by
    unfold Segment.storeCfg Segment.endIdle
    split
    · exact ⟨by simp, hp⟩
    · exact ⟨hs, hp⟩
  unfold State.writeSegCfg
  dsimp only
  rw [if_neg (by rw [h]; decide), State.modSeg_eq _ _ fun x => x.storeCfg c, State.setSeg_seg, if_pos hx,
    State.modSeg_eq, State.stopSegment_seg, Segment.checkWalk_of_unqueued (Segment.stop_unqueued _),
    ← State.stopSegment_seg, State.setSeg_self, State.stopSegment_eq, State.setSeg_setSeg, State.setSeg_seg]

/-- The index of a segment's SEGCFG entry (R84). -/
def segIndex (g : Seg) : Byte := if g = .a then 0 else 1

/-- A SEGCFG write is never refused for its fields: it is stored and answered (R84, R194). -/
theorem execTblwrSegcfg_stored {tag : Byte} {bs : List Byte} (ht : s.takes) (hprot : s.cfs.protects .segcfg = false)
    (hl : bs.length = 6) (hp : parseSegCfg bs = .ok c) (hc : ((s.rxHunt.writeSegCfg g c).seg g).cfg = c) :
    exec (.tblwrSegcfg tag (segIndex g) bs) s = .next
      ((s.rxHunt.writeSegCfg g c).reply tag 0x02 .ok (8 :: segIndex g :: c.bytes)).settle := by
  have hcount : (segIndex g).toNat < TableId.segcfg.count := by cases g <;> decide
  have hown : ownSegcfg (segIndex g).toNat bs s.rxHunt = .ok (s.rxHunt.writeSegCfg g c) := by
    unfold ownSegcfg
    rw [hp]
    cases g <;> rfl
  have hb : (s.rxHunt.writeSegCfg g c).entryBytes .segcfg (segIndex g).toNat = c.bytes := by
    refine Eq.trans ?_ (congrArg SegCfg.bytes hc)
    cases g <;> rfl
  have hstored := State.takeWrite_stored (tag := tag) ht hprot hcount hl hown
  rw [hb] at hstored
  exact congrArg (fun t : State => Host.Outcome.next t.settle) hstored

theorem State.setSeg_settled (h : s.settled) (x : Segment) : (s.setSeg g x).settled :=
  State.settled_of_eq h (State.setSeg_toChime ..) (by rw [State.setSeg_pmg]) (by rw [State.setSeg_pmg])

theorem State.answered_settled (h : s.settled) (tag kind : Byte) (st : Status) (body : List Byte) :
    (s.answered tag kind st body).settled :=
  State.settled_of_eq h rfl rfl rfl

theorem State.rxHunt_setSeg_reply (x : Segment) (tag kind : Byte) (st : Status) (body : List Byte) :
    (s.rxHunt.setSeg g x).reply tag kind st body = (s.setSeg g x).answered tag kind st body := by cases g <;> rfl

theorem State.rxHunt_seg : s.rxHunt.seg g = s.seg g := by cases g <;> rfl

end

/-- Settles O19: enabling and a poll that runs on change the segment alone; otherwise the segment stops and its slots go
LOST. -/
theorem segCfgWrite : Obligations.SegCfgWrite := by
  intro s g tag b0 b1 b2 b3 b4 b5 ht hs hprot e index old c
  have hexec := fun hc => execTblwrSegcfg_stored (s := s) (g := g) (tag := tag) (bs := [b0, b1, b2, b3, b4, b5]) (c := e)
    ht hprot rfl rfl hc
  have hkept : ∀ x : Segment, x.cfg = e → s.rxHunt.writeSegCfg g e = s.rxHunt.setSeg g x →
      exec c s = .next ((s.setSeg g x).answered tag 0x02 .ok (8 :: index :: e.bytes)) := by
    intro x hx hw
    rw [hw, State.setSeg_seg, State.rxHunt_setSeg_reply,
      State.settle_of_settled (State.answered_settled (State.setSeg_settled hs x) _ _ _ _)] at hexec
    exact hexec hx
  refine ⟨fun h0 => ?_, fun h0 hpoll hrun => ?_, fun h0 hpoll hstop => ?_⟩
  · have hen : e.enable = true := decide_eq_true h0
    refine ⟨(old.enabledBy e).checkWalk, _, rfl, (old.enabledBy e).checkWalk_queuedAnswered, hkept _ rfl ?_⟩
    rw [State.writeSegCfg_enabled hen, State.rxHunt_seg]
  · have hen : e.enable = false := decide_eq_false (not_not_intro h0)
    have hx := old.storeCfg_of_not_idle e (by rw [hrun]; decide)
    refine ⟨(old.storeCfg e).checkWalk, (old.storeCfg e).checkWalk.records, ?_, ?_, hkept _ ?_ ?_⟩
    · rw [hx]
      rfl
    · have h := (old.storeCfg e).checkWalk_queuedAnswered
      rw [hx] at h ⊢
      exact h
    · rw [hx]
      rfl
    · rw [State.writeSegCfg_polling hen (by rw [State.rxHunt_seg]; exact hpoll) (by rw [State.rxHunt_seg]; exact hrun),
        State.rxHunt_seg]
  · have hen : e.enable = false := decide_eq_false (not_not_intro h0)
    have hw := State.writeSegCfg_stopped (s := s.rxHunt) (g := g) hen (by rw [State.rxHunt_seg]; exact hpoll)
      (by rw [State.rxHunt_seg]; exact hstop)
    rw [State.rxHunt_seg] at hw
    obtain ⟨h1, h2, hslots, hviews⟩ := State.loseSegment_setSeg_spec (s := s.rxHunt) (g := g)
      (old.storeCfg e).stop_unqueued
    have hx := old.stop_storeCfg e
    generalize (old.storeCfg e).stop = x at hw h1 h2 hviews hslots hx
    have hseg : (s.rxHunt.writeSegCfg g e).seg g = x := by
      rw [hw]
      exact (State.seg_of_around h1 g).trans (by cases g <;> rfl)
    replace hexec := hexec (by rw [hseg, hx])
    rw [hw] at hexec
    generalize (s.rxHunt.setSeg g x).loseSegment g = v at hexec h1 h2 hviews hslots
    generalize hu : v.reply tag 0x02 .ok (8 :: segIndex g :: e.bytes) = u at hexec
    have hpmg : u.pmg = s.pmg := by rw [← hu]; exact h2
    have hwatch : u.pmg.power = .parkWatch → u.pmg.watchSet ≠ [] := by rw [hpmg]; exact hs.2
    obtain ⟨hpos, hpnd⟩ := State.settle_positions hwatch
    have hslot : u.settle.slots = v.slots := by rw [← hu]; exact congrArg Records.slots (State.settle_records _)
    have hbase : (({ s.setSeg g x with slots := v.slots } : State).answered tag 0x02 .ok
        (8 :: segIndex g :: e.bytes)).settled := State.setSeg_settled hs x
    have ha : u.around = (({ s.setSeg g x with slots := v.slots } : State).answered tag 0x02 .ok
        (8 :: segIndex g :: e.bytes)).around := by
      rw [← hu]
      refine (congrArg (fun t : State => t.reply tag 0x02 .ok (8 :: segIndex g :: e.bytes)) h1).trans ?_
      cases g <;> rfl
    refine ⟨u.settle, x, _, hexec, hx, old.answerQueued_queuedAnswered .segmentOff, ?_, fun i => ?_, fun q => ?_⟩
    · rw [hpos, hpnd, hslot]
      refine (State.settle_of_around ha (hpmg.trans (State.setSeg_pmg ..).symm) hbase.1 hbase.2).trans ?_
      cases g <;> rfl
    · rw [hslot]
      exact hslots i
    · rw [hpos, ← hu]
      exact ⟨fun h => congrArg PosView.record ((hviews q).1 h), fun h => congrArg PosView.record ((hviews q).2 h)⟩

end Sys2Proof.Machine
end

section
/-! SUPPORT. A miss at a slot: what it does to the slot, to its records and to the positions it feeds. -/

namespace Sys2Proof.Machine

/-! ### What a miss does to the slot's own record (R123 to R126) -/

/-- A miss drops the slot by the detach count (R125, R126). -/
abbrev SlotRec.drops (r : SlotRec) (g : Seg) (c : SegCfg) : Prop :=
  r.lastSeg = some g ∧ ((r.state = .lost ∧ c.detachCount ≤ r.lost + 1) ∨ (r.state = .refused ∧ c.detachCount ≤ r.miss + 1))

/-- A miss takes an ACTIVE slot to its miss limit (R124). -/
abbrev SlotRec.atLimit (r : SlotRec) (g : Seg) (c : SegCfg) : Prop :=
  r.lastSeg = some g ∧ r.state = .active ∧ c.missLimit ≤ r.miss + 1

/-- The record of a slot dropped by the detach count (R125, R126). -/
def SlotRec.dropped (r : SlotRec) : SlotRec := { SlotRec.reset with events := r.events ||| 16, owed := true }

/-- The record with the miss counted, below the limits (R123). -/
def SlotRec.counted (r : SlotRec) (g : Seg) : SlotRec :=
  if r.lastSeg ≠ some g then r
  else match r.state with
    | .empty => r
    | .active => { r with miss := r.miss + 1 }
    | .refused => { r with miss := r.miss + 1 }
    | .lost => { r with lost := r.lost + 1 }

/-- The record after a miss. -/
def SlotRec.missed (r : SlotRec) (g : Seg) (c : SegCfg) : SlotRec :=
  if r.drops g c then r.dropped else if r.atLimit g c then (r.counted g).gone else r.counted g

theorem SlotRec.not_drops_of_atLimit {r : SlotRec} {g : Seg} {c : SegCfg} (h : r.atLimit g c) : ¬r.drops g c := by
  rintro ⟨-, ⟨e, -⟩ | ⟨e, -⟩⟩ <;> exact absurd (h.2.1.symm.trans e) (by decide)

theorem SlotRec.counted_kept (r : SlotRec) (g : Seg) :
    (r.counted g).state = r.state ∧ (r.counted g).lastSeg = r.lastSeg ∧ (r.counted g).events = r.events := by
  unfold SlotRec.counted
  split
  · exact ⟨rfl, rfl, rfl⟩
  · split <;> exact ⟨rfl, rfl, rfl⟩

theorem SlotRec.counted_dropped (r : SlotRec) (g : Seg) : (r.counted g).dropped = r.dropped := by
  unfold SlotRec.dropped
  rw [(r.counted_kept g).2.2]

theorem put_put {α : Type} {n : Nat} (v : Vector α n) (i : Fin n) (a b : α) : put (put v i a) i b = put v i b := by
  simp [put]

theorem put_own {α : Type} {n : Nat} (v : Vector α n) (i : Fin n) : put v i v[i] = v := by
  simp [put]

/-! ### The miss (R123 to R126) -/

section
variable {s : State} {g : Seg} {i : Slot}

/-- UTR's handling of a miss by its three outcomes: dropped, lost, counted. -/
theorem State.handleMiss_eq :
    s.handleMiss g i =
      if s.slots[i].drops g (s.seg g).cfg then (s.setSlot i (s.slots[i].counted g)).dropSlot i
      else if s.slots[i].atLimit g (s.seg g).cfg then (s.setSlot i (s.slots[i].counted g)).loseSlot i
      else s.setSlot i (s.slots[i].counted g) := by
  have hself : s.setSlot i s.slots[i] = s := by
    unfold State.setSlot
    rw [put_own]
  unfold State.handleMiss
  dsimp only
  generalize s.slots[i] = r at hself ⊢
  by_cases hg : r.lastSeg = some g
  · rw [if_neg (not_not_intro hg)]
    obtain ⟨state, serial, lastSeg, lastSeq, miss, lost, events, owed⟩ := r
    cases state with
    | empty => simp [SlotRec.drops, SlotRec.atLimit, SlotRec.counted, hself]
    | active => simp_all [SlotRec.drops, SlotRec.atLimit, SlotRec.counted]
    | refused => simp_all [SlotRec.drops, SlotRec.atLimit, SlotRec.counted]
    | lost => simp_all [SlotRec.drops, SlotRec.atLimit, SlotRec.counted]
  · rw [if_pos hg, if_neg fun h => hg h.1, if_neg fun h => hg h.1, SlotRec.counted, if_pos hg, hself]

/-- A slot dropped: its record, the positions it feeds cleared, and nothing else (R125, R126). -/
theorem State.dropSlot_spec (s : State) (i : Slot) :
    (s.dropSlot i).around = ({ s with slots := (s.dropSlot i).slots } : State).around ∧
      (s.dropSlot i).slots = put s.slots i s.slots[i].dropped ∧
        ∀ q, (s.dropSlot i).view q = if s.positions[q].fedBy i then (s.view q).cleared q else s.view q := by
  obtain ⟨h1, h2, -⟩ := s.clearFedBy_spec i
  have hd : s.dropSlot i = (s.clearFedBy i).setSlot i s.slots[i].dropped := by
    unfold State.dropSlot
    dsimp only
    simp only [State.clearFedBy_slots]
    exact congrArg (State.setSlot (s.clearFedBy i) i)
      (rfl : s.slots[i].toEmpty.addEvent .detached = s.slots[i].dropped)
  have hs : (s.clearFedBy i).slots = s.slots := s.clearFedBy_slots i
  rw [hd]
  generalize s.clearFedBy i = t at h1 h2 hs ⊢
  generalize s.slots[i].dropped = r
  refine ⟨congrArg (fun u : State => { u with slots := put t.slots i r }) h1, ?_, fun q => h2 q⟩
  rw [← hs]
  rfl

/-- A miss: the slot's record, its QUEUED records at the miss limit, the positions it feeds cleared where it is dropped
and lost at the miss limit, and nothing else (R123 to R126). -/
theorem State.handleMiss_spec (s : State) (g : Seg) (i : Slot) :
    let drops := s.slots[i].drops g (s.seg g).cfg
    let atLimit := s.slots[i].atLimit g (s.seg g).cfg
    (s.handleMiss g i).around = ({ s.setSeg g (if atLimit then (s.seg g).dropSlot i else s.seg g) with
        slots := put s.slots i (s.slots[i].missed g (s.seg g).cfg) } : State).around ∧
      (s.handleMiss g i).slots = put s.slots i (s.slots[i].missed g (s.seg g).cfg) ∧
        (¬drops → (s.handleMiss g i).pmg = s.pmg) ∧
          ∀ q, (s.handleMiss g i).view q =
            if drops ∧ s.positions[q].fedBy i = true then (s.view q).cleared q
            else if atLimit ∧ s.positions[q].losable i = true then s.lostView q else s.view q := by
  intro drops atLimit
  have hself : (s.setSlot i (s.slots[i].counted g)).slots[i] = s.slots[i].counted g := put_get_self ..
  have hput : ∀ r, put (s.setSlot i (s.slots[i].counted g)).slots i r = put s.slots i r := fun r => put_put ..
  by_cases hd : drops
  · have ha : ¬atLimit := fun h => SlotRec.not_drops_of_atLimit h hd
    have hmiss : s.handleMiss g i = (s.setSlot i (s.slots[i].counted g)).dropSlot i :=
      State.handleMiss_eq.trans (if_pos hd)
    have hrec : s.slots[i].missed g (s.seg g).cfg = s.slots[i].dropped := if_pos hd
    obtain ⟨h1, h2, h3⟩ := (s.setSlot i (s.slots[i].counted g)).dropSlot_spec i
    rw [hput, hself, SlotRec.counted_dropped] at h2
    rw [h2] at h1
    rw [hmiss, hrec, if_neg ha, State.setSeg_self]
    refine ⟨h1, h2, fun h => absurd hd h, fun q => (h3 q).trans ?_⟩
    simp only [hd, ha, true_and, false_and, if_false]
    rfl
  · by_cases ha : atLimit
    · have hmiss : s.handleMiss g i = (s.setSlot i (s.slots[i].counted g)).loseSlot i :=
        State.handleMiss_eq.trans ((if_neg hd).trans (if_pos ha))
      have hrec : s.slots[i].missed g (s.seg g).cfg = (s.slots[i].counted g).gone := (if_neg hd).trans (if_pos ha)
      have hseg : (s.setSlot i (s.slots[i].counted g)).slots[i].lastSeg = some g := by
        rw [hself, (s.slots[i].counted_kept g).2.1]
        exact ha.1
      obtain ⟨h1, h2, h3⟩ := State.loseSlot_spec hseg
      have h4 := (s.setSlot i (s.slots[i].counted g)).loseSlot_slots i
      rw [hput, hself] at h4
      rw [h4] at h1
      rw [hmiss, hrec, if_pos ha]
      refine ⟨h1.trans (by cases g <;> rfl), h4, fun _ => h2, fun q => (h3 q).trans ?_⟩
      simp only [hd, ha, true_and, false_and, if_false]
      rfl
    · have hmiss : s.handleMiss g i = s.setSlot i (s.slots[i].counted g) :=
        State.handleMiss_eq.trans ((if_neg hd).trans (if_neg ha))
      have hrec : s.slots[i].missed g (s.seg g).cfg = s.slots[i].counted g := (if_neg hd).trans (if_neg ha)
      rw [hmiss, hrec, if_neg ha, State.setSeg_self]
      refine ⟨rfl, rfl, fun _ => rfl, fun q => ?_⟩
      simp only [hd, ha, false_and, if_false]
      rfl

/-- A miss after the segment changed but for its configuration, by the state before (R123 to R126). -/
theorem State.handleMiss_setSeg_spec (s : State) (g : Seg) (i : Slot) {y : Segment} (hc : y.cfg = (s.seg g).cfg) :
    let drops := s.slots[i].drops g (s.seg g).cfg
    let atLimit := s.slots[i].atLimit g (s.seg g).cfg
    ((s.setSeg g y).handleMiss g i).around = ({ s.setSeg g (if atLimit then y.dropSlot i else y) with
        slots := put s.slots i (s.slots[i].missed g (s.seg g).cfg) } : State).around ∧
      ((s.setSeg g y).handleMiss g i).slots = put s.slots i (s.slots[i].missed g (s.seg g).cfg) ∧
        (¬drops → ((s.setSeg g y).handleMiss g i).pmg = s.pmg) ∧
          ∀ q, ((s.setSeg g y).handleMiss g i).view q =
            if drops ∧ s.positions[q].fedBy i = true then (s.view q).cleared q
            else if atLimit ∧ s.positions[q].losable i = true then s.lostView q else s.view q := by
  have hlost : ∀ q, (s.setSeg g y).lostView q = s.lostView q := fun q => by
    unfold State.lostView
    rw [State.setSeg_view, State.setSeg_remInputs]
  obtain ⟨h1, h2, h3, h4⟩ := (s.setSeg g y).handleMiss_spec g i
  simp only [State.setSeg_seg, State.setSeg_slots, State.setSeg_setSeg, hc] at h1 h2
  simp only [State.setSeg_seg, State.setSeg_slots, State.setSeg_positions, State.setSeg_view, hlost, State.setSeg_pmg,
    hc] at h3 h4
  exact ⟨h1, h2, h3, h4⟩

theorem State.positions_of_views {t : State} (h : ∀ q, t.view q = s.view q) : t.positions = s.positions :=
  Vector.ext fun k hk => congrArg PosView.record (h ⟨k, hk⟩)

theorem State.settle_seg {t : State} (h : t.pmg.power = .parkWatch → t.pmg.watchSet ≠ []) (g : Seg) :
    t.settle.seg g = t.seg g := by
  rw [State.settle_eq_deliver h, deliver_shape t]
  cases g <;> rfl

theorem Segment.dropSlot_not_queued {x : Segment} {q : PassRecord} (h : q ∈ (x.dropSlot i).records) (hq : q.slot = i) :
    q.state ≠ .queued := by
  rcases mem_answerAll h with ⟨k, e⟩ | ⟨-, e⟩
  · rw [e]; exact fun c => by cases c
  · intro c
    simp [c, hq] at e

/-- A poll that ends without a good REPORT on an enabled segment: the miss, and nothing after it (R95, R98). -/
theorem State.pollMiss_enabled {p : PollRec} (st : AnswerStatus) (h : (s.seg g).cfg.enable = true) :
    s.pollMiss g p st = (s.setSeg g ((s.seg g).answerSent st []).endPoll).handleMiss g p.slot := by
  have hs := ((s.handleMiss_setSeg_spec g p.slot (y := ((s.seg g).answerSent st []).endPoll) rfl)).1
  refine State.afterPoll_of_enabled (g := g) (Eq.trans (congrArg (fun x : Segment => x.cfg.enable)
    (State.seg_of_around hs g)) ?_)
  have hb : ∀ (u : State) (x : Segment) (v : Vector SlotRec 16), ({ u.setSeg g x with slots := v } : State).seg g = x :=
    fun u x v => by cases g <;> rfl
  rw [hb]
  split <;> exact h

end

/-- Settles O37: the slot by its record after a miss, and each position by its view. -/
theorem missCounted : Obligations.MissCounted := by
  intro s g p x r hs _ _ hen hpoll hwin hseg
  have hexec : exec (.replyWindowExpiry g) s =
      .next ((s.setSeg g ((x.ignoreFrame.answerSent .noResponse []).endPoll)).handleMiss g p.slot).settle := by
    show execReplyWindowExpiry g s = _
    unfold execReplyWindowExpiry
    rw [hpoll]
    dsimp only
    rw [if_pos hwin, State.pollMiss_enabled _ (by rw [State.modSeg_seg]; exact hen), State.modSeg_seg, State.modSeg_eq,
      State.setSeg_setSeg]
  obtain ⟨haround, hslots, hpmg, hview⟩ := s.handleMiss_setSeg_spec g p.slot
    (y := (x.ignoreFrame.answerSent .noResponse []).endPoll) rfl
  generalize (x.ignoreFrame.answerSent .noResponse []).endPoll = y at hexec haround hslots hpmg hview
  generalize (s.setSeg g y).handleMiss g p.slot = v at hexec haround hslots hpmg hview
  have hslot : v.settle.slots = put s.slots p.slot (r.missed g x.cfg) :=
    (congrArg Records.slots v.settle_records).trans hslots
  have hself : v.settle.slots[p.slot] = r.missed g x.cfg := by
    simp only [hslot]
    exact put_get_self ..
  have hpos : v.settle.positions = v.positions := congrArg Records.positions v.settle_records
  have hnode : v.settle.node = s.node := by
    refine (congrArg Records.node v.settle_records).trans ((State.node_of_around haround).trans ?_)
    exact State.setSeg_node ..
  have hpower : v.pmg.power = s.pmg.power := by
    refine (State.power_of_around haround).trans ?_
    exact congrArg Pmg.power (State.setSeg_pmg ..)
  have hsame : ¬r.drops g x.cfg → ¬r.atLimit g x.cfg → v.settle.positions = s.positions := fun hd ha => by
    refine hpos.trans (State.positions_of_views fun q => ?_)
    rw [hview q, if_neg fun c => hd c.1, if_neg fun c => ha c.1]
  have hmissed : ¬r.drops g x.cfg → ¬r.atLimit g x.cfg → r.missed g x.cfg = r.counted g := fun hd ha =>
    (if_neg hd).trans (if_neg ha)
  have hcounted : r.counted g = match r.state with
      | .empty => r
      | .active => { r with miss := r.miss + 1 }
      | .refused => { r with miss := r.miss + 1 }
      | .lost => { r with lost := r.lost + 1 } := if_neg (not_not_intro hseg)
  have hdropped : r.drops g x.cfg → v.settle.slots[p.slot] =
      { SlotRec.reset with events := r.events ||| 16, owed := true } :=
    fun hd => hself.trans (if_pos hd)
  have hcleared : r.drops g x.cfg → ∀ q : Pos, v.settle.positions[q] =
      if s.positions[q].fedBy p.slot then Position.reset else s.positions[q] := by
    intro hd q
    have ha : ¬r.atLimit g x.cfg := fun h => SlotRec.not_drops_of_atLimit h hd
    have h := hview q
    rw [hpos]
    by_cases hf : s.positions[q].fedBy p.slot = true
    · rw [if_pos ⟨hd, hf⟩] at h
      rw [if_pos hf]
      exact congrArg PosView.record h
    · rw [if_neg fun c => hf c.2, if_neg fun c => ha c.1] at h
      rw [if_neg hf]
      exact congrArg PosView.record h
  refine ⟨v.settle, hexec, fun i hi => ?_, hnode, fun hp => ?_, fun ha hm => ?_, fun ha hm => ?_, fun hl hm => ?_,
    fun hl hm => ?_, fun hr hm => ?_, fun hr hm => ?_⟩
  · simp only [hslot]
    exact put_get_ne _ _ hi
  · rw [State.settle_seg (fun h => absurd (hpower.symm.trans h) hp)]
    refine (State.seg_of_around haround _).trans ?_
    cases g <;> rfl
  · have hd : ¬r.drops g x.cfg := by simp [SlotRec.drops, ha]
    have hlim : ¬r.atLimit g x.cfg := fun c => by have := c.2.2; omega
    refine ⟨?_, hsame hd hlim⟩
    rw [hself, hmissed hd hlim, hcounted, ha]
  · have hlim : r.atLimit g x.cfg := ⟨hseg, ha, hm⟩
    have hd := SlotRec.not_drops_of_atLimit hlim
    have hwatch : v.pmg.power = .parkWatch → v.pmg.watchSet ≠ [] := by rw [hpmg hd]; exact hs.2
    refine ⟨?_, fun q hq hqs => ?_, fun q => ?_⟩
    · rw [hself, SlotRec.missed, if_neg hd, if_pos hlim, hcounted, ha]
      rfl
    · have hrec : v.seg g = y.dropSlot p.slot := by
        refine (State.seg_of_around haround g).trans ?_
        rw [if_pos hlim]
        cases g <;> rfl
      rw [State.settle_seg hwatch, hrec] at hq
      exact Segment.dropSlot_not_queued hq hqs
    · have h := hview q
      rw [if_neg fun c => hd c.1] at h
      rw [hpos]
      by_cases hf : s.positions[q].losable p.slot = true
      · rw [if_pos ⟨hlim, hf⟩] at h
        rw [if_pos hf]
        exact congrArg PosView.record h
      · rw [if_neg fun c => hf c.2] at h
        rw [if_neg hf]
        exact congrArg PosView.record h
  · have hd : ¬r.drops g x.cfg := fun c => by
      rcases c.2 with ⟨-, h⟩ | ⟨h, -⟩
      · omega
      · exact absurd (hl.symm.trans h) (by decide)
    have hlim : ¬r.atLimit g x.cfg := fun c => absurd (hl.symm.trans c.2.1) (by decide)
    refine ⟨?_, hsame hd hlim⟩
    rw [hself, hmissed hd hlim, hcounted, hl]
  · have hd : r.drops g x.cfg := ⟨hseg, .inl ⟨hl, hm⟩⟩
    exact ⟨hdropped hd, hcleared hd⟩
  · have hd : ¬r.drops g x.cfg := fun c => by
      rcases c.2 with ⟨h, -⟩ | ⟨-, h⟩
      · exact absurd (hr.symm.trans h) (by decide)
      · omega
    have hlim : ¬r.atLimit g x.cfg := fun c => absurd (hr.symm.trans c.2.1) (by decide)
    refine ⟨?_, hsame hd hlim⟩
    rw [hself, hmissed hd hlim, hcounted, hr]
  · have hd : r.drops g x.cfg := ⟨hseg, .inr ⟨hr, hm⟩⟩
    refine ⟨hdropped hd, fun hnone => Vector.ext fun k hk => ?_⟩
    refine (hcleared hd ⟨k, hk⟩).trans (if_neg ?_)
    rw [hnone]
    decide

end Sys2Proof.Machine
end

section
/-! SUPPORT. A stuck line: the fault, the disable that waited, and what both leave of the slots, the positions and the
records. -/

namespace Sys2Proof.Machine

/-! ### Lists related place by place -/

theorem forall₂_chain {α β γ : Type} {R : α → β → Prop} {S : β → γ → Prop} {T : α → γ → Prop}
    (h : ∀ a b c, R a b → S b c → T a c) {as : List α} {bs : List β} {cs : List γ} (hr : List.Forall₂ R as bs)
    (hs : List.Forall₂ S bs cs) : List.Forall₂ T as cs := by
  induction hr generalizing cs with
  | nil => cases hs; exact .nil
  | cons hab _ ih =>
    cases hs with
    | cons hbc hs => exact .cons (h _ _ _ hab hbc) (ih hs)

theorem forall₂_at {α β : Type} {R : α → β → Prop} {as : List α} {bs : List β} (h : List.Forall₂ R as bs) {k : Nat} {a : α}
    (ha : as[k]? = some a) : ∃ b, bs[k]? = some b ∧ R a b := by
  induction h generalizing k with
  | nil => cases ha
  | cons hab _ ih =>
    cases k with
    | zero => cases ha; exact ⟨_, rfl, hab⟩
    | succ k => exact ih ha

/-! ### The fault and what follows it (R96, R98) -/

section
variable {s : State} {g : Seg}

/-- A segment in FAULT, stopped at once where its disable waited (R96, R98). -/
def Segment.faulted (x : Segment) : Segment := if x.cfg.enable then x.enterFault else x.enterFault.stop

theorem Segment.enterFault_unqueued (x : Segment) : x.enterFault.unqueued := x.answerQueued_unqueued .segmentFault

theorem Segment.faulted_eq (x : Segment) :
    x.faulted = { x with
      records := (x.answerQueued .segmentFault).records, lineStuck := true, pass := none, reception := .none
      state := if x.cfg.enable then .fault else .stopped, probe := x.cfg.enable } := by
  unfold Segment.faulted Segment.stop
  rw [Segment.answerQueued_of_unqueued x.enterFault_unqueued]
  cases h : x.cfg.enable <;> rfl

/-- The fault takes the segment's ACTIVE slots to LOST; a disable that waited finds none left (R96, R98, R127). -/
theorem State.fault_spec (s : State) (g : Seg) :
    let t := (((s.modSeg g Segment.enterFault).loseSegment g).afterPoll g)
    t.around = ({ s.setSeg g (s.seg g).faulted with slots := t.slots } : State).around ∧ t.pmg = s.pmg ∧
      (∀ i : Slot, t.slots[i] = if s.goes g i then s.slots[i].gone else s.slots[i]) ∧
        ∀ q, ((∃ i, s.goes g i ∧ s.positions[q].losable i = true) → t.view q = s.lostView q) ∧
          ((∀ i, s.goes g i → s.positions[q].losable i = false) → t.view q = s.view q) := by
  intro t
  obtain ⟨h1, h2, h3, h4⟩ := State.loseSegment_setSeg_spec (s := s) (g := g) (s.seg g).enterFault_unqueued
  have ht : t = ((s.setSeg g (s.seg g).enterFault).loseSegment g).afterPoll g := rfl
  clear_value t
  generalize (s.setSeg g (s.seg g).enterFault).loseSegment g = u at h1 h2 h3 h4 ht
  have hseg : u.seg g = (s.seg g).enterFault := (State.seg_of_around h1 g).trans (by cases g <;> rfl)
  by_cases hen : (s.seg g).cfg.enable = true
  · rw [State.afterPoll_of_enabled (by rw [hseg]; exact hen)] at ht
    rw [ht, Segment.faulted, if_pos hen]
    exact ⟨h1, h2, h3, h4⟩
  · have hstop : t = (u.setSeg g (s.seg g).enterFault.stop).loseSegment g := by
      rw [ht, State.afterPoll, if_neg (by rw [hseg]; exact fun c => c.elim hen (by exact fun e => by cases e)),
        State.stopSegment_eq, hseg]
    obtain ⟨k1, k2, k3, k4⟩ := State.loseSegment_setSeg_spec (s := u) (g := g) (s.seg g).enterFault.stop_unqueued
    have hnone : ∀ i, ¬u.goes g i := fun i c => by
      have hs := h3 i
      split at hs
      · rw [State.goes, hs] at c
        exact absurd c.1 (by simp [SlotRec.gone])
      · rename_i hn
        rw [State.goes, hs] at c
        exact hn c
    rw [← hstop] at k1 k2 k3 k4
    have hslots : t.slots = u.slots := Vector.ext fun k hk => (k3 ⟨k, hk⟩).trans (if_neg (hnone _))
    have hview : ∀ q, t.view q = u.view q := fun q => (k4 q).2 fun i c => absurd c (hnone i)
    refine ⟨k1.trans ?_, k2.trans h2, fun i => ?_, fun q => ?_⟩
    · rw [Segment.faulted, if_neg hen]
      have h := congrArg (fun v : State => ({ v.setSeg g (s.seg g).enterFault.stop with slots := t.slots } : State)) h1
      cases g
      · exact h
      · exact h
    · rw [← h3 i]
      simp only [hslots]
    · rw [hview q]
      exact h4 q

theorem execLineStuck_eq (hl : (s.seg g).listens = true) (hs : (s.seg g).sending = none) :
    exec (.lineStuckDetect g) s =
      .next ((((s.stuckPoll g).modSeg g Segment.enterFault).loseSegment g).afterPoll g).settle :=
  congrArg Host.Outcome.next (if_pos ⟨hl, hs⟩)

theorem Segment.listens_of {x : Segment} (h : x.state = .idle ∨ x.state = .running) : x.listens = true := by
  unfold Segment.listens
  rcases h with h | h <;> rw [h] <;> rfl

end

/-- The first part of O39: a stuck line with no poll outstanding. -/
theorem lineStuck_idle (s : State) (g : Seg) (hs : s.settled) (hstate : (s.seg g).state = .idle ∨ (s.seg g).state = .running)
    (hsend : (s.seg g).sending = none) (hpoll : (s.seg g).poll = none) (hen : (s.seg g).cfg.enable = true) :
    ∃ (t : State) (rs : List PassRecord), exec (.lineStuckDetect g) s = .next t ∧
      queuedAnswered .segmentFault (fun _ => true) (s.seg g).records rs ∧
        t = { s.setSeg g { s.seg g with
          records := rs, lineStuck := true, state := .fault, probe := true, pass := none, reception := .none } with
            slots := t.slots, positions := t.positions, chd := t.chd, pnd := { s.pnd with image := t.pnd.image }
            free := t.free } ∧
          (∀ i : Slot, t.slots[i] = if s.goes g i then s.slots[i].gone else s.slots[i]) ∧
            ∀ q : Pos, ((∃ i, s.goes g i ∧ s.positions[q].losable i) → t.positions[q] = s.lostPosition q) ∧
              ((∀ i, s.goes g i → s.positions[q].losable i = false) → t.positions[q] = s.positions[q]) := by
  have hexec := execLineStuck_eq (Segment.listens_of hstate) hsend
  have hstuck : s.stuckPoll g = s := by
    unfold State.stuckPoll
    rw [hpoll]
  obtain ⟨haround, hpmg, hslots, hviews⟩ := s.fault_spec g
  rw [hstuck] at hexec
  generalize ((s.modSeg g Segment.enterFault).loseSegment g).afterPoll g = u at hexec haround hpmg hslots hviews
  have hwatch : u.pmg.power = .parkWatch → u.pmg.watchSet ≠ [] := by rw [hpmg]; exact hs.2
  obtain ⟨hpos, hpnd⟩ := State.settle_positions hwatch
  have hslot : u.settle.slots = u.slots := congrArg Records.slots u.settle_records
  have hbase : ({ s.setSeg g (s.seg g).faulted with slots := u.slots } : State).settled := State.setSeg_settled hs _
  refine ⟨u.settle, _, hexec, (s.seg g).answerQueued_queuedAnswered .segmentFault, ?_, fun i => ?_, fun q => ?_⟩
  · rw [hpos, hpnd, hslot]
    refine (State.settle_of_around haround (hpmg.trans (State.setSeg_pmg ..).symm) hbase.1 hbase.2).trans ?_
    rw [Segment.faulted_eq, hen]
    cases g <;> rfl
  · rw [hslot]
    exact hslots i
  · rw [hpos]
    exact ⟨fun h => congrArg PosView.record ((hviews q).1 h), fun h => congrArg PosView.record ((hviews q).2 h)⟩

/-! ### A stuck line that ends a poll -/

section
variable {s : State} {g : Seg} {p : PollRec}

theorem SlotRec.dropped_not_active (r : SlotRec) : r.dropped.state ≠ .active := (by decide : SlotState.empty ≠ .active)

theorem SlotRec.gone_not_active (r : SlotRec) : r.gone.state ≠ .active := (by decide : SlotState.lost ≠ .active)

/-- The slot of a poll that a stuck line ends: the miss counted, and an ACTIVE one LOST (R123 to R127). -/
theorem SlotRec.missed_faulted (r : SlotRec) (g : Seg) (c : SegCfg) :
    (if (r.missed g c).state = .active ∧ (r.missed g c).lastSeg = some g then (r.missed g c).gone else r.missed g c) =
      if r.drops g c then r.dropped
      else if r.state = .active ∧ r.lastSeg = some g then (r.counted g).gone else r.counted g := by
  obtain ⟨hstate, hlast, -⟩ := r.counted_kept g
  by_cases hd : r.drops g c
  · rw [SlotRec.missed, if_pos hd, if_pos hd]
    exact if_neg fun h => r.dropped_not_active h.1
  · by_cases ha : r.atLimit g c
    · rw [SlotRec.missed, if_neg hd, if_neg hd, if_pos ha, if_neg fun h => (r.counted g).gone_not_active h.1]
      exact (if_pos ⟨ha.2.1, ha.1⟩).symm
    · rw [SlotRec.missed, if_neg hd, if_neg hd, if_neg ha, hstate, hlast]

/-- The same record by the slot's state, where it was last heard on the segment (R123 to R127). -/
theorem SlotRec.faulted_cases (r : SlotRec) (g : Seg) (c : SegCfg) :
    (if r.drops g c then r.dropped
      else if r.state = .active ∧ r.lastSeg = some g then (r.counted g).gone else r.counted g) =
      if r.drops g c then r.dropped
      else if r.lastSeg ≠ some g then r
      else match r.state with
        | .empty => r
        | .refused => { r with miss := r.miss + 1 }
        | .lost => { r with lost := r.lost + 1 }
        | .active => { r with
            state := .lost, miss := r.miss + 1, lost := 0, events := r.events ||| 4, owed := true } := by
  by_cases hd : r.drops g c
  · rw [if_pos hd, if_pos hd]
  · rw [if_neg hd, if_neg hd]
    unfold SlotRec.counted
    by_cases hg : r.lastSeg = some g
    · rw [if_neg (not_not_intro hg), if_neg (not_not_intro hg)]
      obtain ⟨state, serial, lastSeg, lastSeq, miss, lost, events, owed⟩ := r
      cases state with
      | empty => exact if_neg fun h => by cases h.1
      | active => exact if_pos ⟨rfl, hg⟩
      | refused => exact if_neg fun h => by cases h.1
      | lost => exact if_neg fun h => by cases h.1
    · rw [if_pos hg, if_pos hg, if_neg fun h => hg h.2]

/-- The slots that are still to lose after the miss: those of before, without the polled one at its miss limit. -/
theorem State.goes_missed {v : State} {i : Slot} {c : SegCfg}
    (hv : v.slots = put s.slots i (s.slots[i].missed g c)) (j : Slot) :
    v.goes g j ↔ s.goes g j ∧ ¬(j = i ∧ s.slots[i].atLimit g c) := by
  unfold State.goes
  simp only [hv]
  by_cases e : j = i
  · subst e
    obtain ⟨hstate, hlast, -⟩ := s.slots[j].counted_kept g
    have hself : (put s.slots j (s.slots[j].missed g c))[j] = s.slots[j].missed g c := put_get_self ..
    rw [hself, SlotRec.missed]
    by_cases hd : s.slots[j].drops g c
    · rw [if_pos hd]
      refine ⟨fun h => absurd h.1 (SlotRec.dropped_not_active _), fun h => ?_⟩
      rcases hd.2 with ⟨e, -⟩ | ⟨e, -⟩ <;> exact absurd (h.1.1.symm.trans e) (by decide)
    · rw [if_neg hd]
      by_cases ha : s.slots[j].atLimit g c
      · rw [if_pos ha]
        exact ⟨fun h => absurd h.1 (SlotRec.gone_not_active _), fun h => absurd ⟨rfl, ha⟩ h.2⟩
      · rw [if_neg ha, hstate, hlast]
        exact ⟨fun h => ⟨h, fun c => ha c.2⟩, fun h => h.1⟩
  · have hne : (put s.slots i (s.slots[i].missed g c))[j] = s.slots[j] := put_get_ne _ _ e
    rw [hne]
    exact ⟨fun h => ⟨h, fun c => e c.1⟩, fun h => h.1⟩

/-- A losable position is fed by that slot and by no other. -/
theorem Position.losable_fedBy {r : Position} {i : Slot} (h : r.losable i = true) : r.fedBy i = true :=
  (Bool.and_eq_true_iff.mp h).1

theorem Position.fedBy_unique {r : Position} {i j : Slot} (hi : r.fedBy i = true) (hj : r.fedBy j = true) : i = j := by
  unfold Position.fedBy at hi hj
  obtain ⟨-, hi⟩ := Bool.and_eq_true_iff.mp hi
  obtain ⟨-, hj⟩ := Bool.and_eq_true_iff.mp hj
  split at hi
  · rename_i slot ix hsrc
    rw [hsrc] at hj
    exact (of_decide_eq_true hi).symm.trans (of_decide_eq_true hj)
  · cases hi

/-- The positions after a stuck line that ends a poll: cleared where the polled slot is dropped, lost where a slot is
lost, and otherwise as before (R96, R125, R127). -/
theorem State.stuck_views {v u : State} {i : Slot} {c : SegCfg}
    (hslots : v.slots = put s.slots i (s.slots[i].missed g c))
    (hlost : ∀ q, v.view q = s.view q → v.lostView q = s.lostView q)
    (hmiss : ∀ q, v.view q =
      if s.slots[i].drops g c ∧ s.positions[q].fedBy i = true then (s.view q).cleared q
      else if s.slots[i].atLimit g c ∧ s.positions[q].losable i = true then s.lostView q else s.view q)
    (hfault : ∀ q, ((∃ j, v.goes g j ∧ v.positions[q].losable j = true) → u.view q = v.lostView q) ∧
      ((∀ j, v.goes g j → v.positions[q].losable j = false) → u.view q = v.view q)) (q : Pos) :
    (s.slots[i].drops g c → s.positions[q].fedBy i = true → u.positions[q] = Position.reset) ∧
      ((∃ j, s.goes g j ∧ s.positions[q].losable j = true) → u.positions[q] = s.lostPosition q) ∧
        (¬(s.slots[i].drops g c ∧ s.positions[q].fedBy i = true) →
          (∀ j, s.goes g j → s.positions[q].losable j = false) → u.positions[q] = s.positions[q]) := by
  have hview := hmiss q
  obtain ⟨hgo, hstay⟩ := hfault q
  refine ⟨fun hd hf => ?_, fun ⟨j, hj, hl⟩ => ?_, fun hn hnone => ?_⟩
  · rw [if_pos ⟨hd, hf⟩] at hview
    have hrec : v.positions[q] = Position.reset := congrArg PosView.record hview
    exact (congrArg PosView.record (hstay fun j _ => by rw [hrec]; rfl)).trans hrec
  · have hn : ¬(s.slots[i].drops g c ∧ s.positions[q].fedBy i = true) := by
      rintro ⟨hd, hf⟩
      have e := Position.fedBy_unique (Position.losable_fedBy hl) hf
      subst e
      rcases hd.2 with ⟨e, -⟩ | ⟨e, -⟩ <;> exact absurd (hj.1.symm.trans e) (by decide)
    rw [if_neg hn] at hview
    by_cases ha : s.slots[i].atLimit g c ∧ s.positions[q].losable i = true
    · rw [if_pos ha] at hview
      have hrec : v.positions[q] = s.lostPosition q := congrArg PosView.record hview
      exact (congrArg PosView.record (hstay fun j _ => by
        rw [hrec]; exact s.lostPosition_not_losable q j)).trans hrec
    · rw [if_neg ha] at hview
      have hrec : v.positions[q] = s.positions[q] := congrArg PosView.record hview
      have hv : v.goes g j := (State.goes_missed hslots j).mpr ⟨hj, fun c => ha ⟨c.2, c.1 ▸ hl⟩⟩
      have h := hgo ⟨j, hv, by rw [hrec]; exact hl⟩
      rw [hlost q hview] at h
      exact congrArg PosView.record h
  · have ha : ¬(s.slots[i].atLimit g c ∧ s.positions[q].losable i = true) := fun h => by
      have := hnone i ⟨h.1.2.1, h.1.1⟩
      rw [h.2] at this
      cases this
    rw [if_neg hn, if_neg ha] at hview
    have hrec : v.positions[q] = s.positions[q] := congrArg PosView.record hview
    refine (congrArg PosView.record (hstay fun j hj => ?_)).trans hrec
    rw [hrec]
    exact hnone j ((State.goes_missed hslots j).mp hj).1

end

/-! ### The records -/

section
variable (x : Segment) (i : Slot) (atLimit : Prop) [Decidable atLimit]

/-- A QUEUED record answered as the stuck line's poll ends: NOT_PRESENT where its slot goes LOST by the miss, else
SEGMENT_FAULT (R96, R102). -/
def queuedFaulted (q q' : PassRecord) : Prop :=
  if q.state = .queued then
    ∃ n, q' = { q with state := .answered (if q.slot = i ∧ atLimit then .notPresent else .segmentFault) [] n }
  else q' = q

/-- The records of a segment after the miss and the fault (R96, R102). -/
theorem Segment.faulted_records :
    List.Forall₂ (queuedFaulted i atLimit) x.records (if atLimit then x.dropSlot i else x).faulted.records := by
  have hdrop : List.Forall₂ (fun q q' : PassRecord => if q.state = .queued ∧ q.slot = i ∧ atLimit then
      ∃ n, q' = { q with state := .answered .notPresent [] n } else q' = q) x.records
        (if atLimit then x.dropSlot i else x).records := by
    by_cases ha : atLimit
    · rw [if_pos ha]
      refine (answerAll_forall _ .notPresent [] _ x.records).imp fun q q' h => ?_
      simpa only [Bool.and_eq_true, decide_eq_true_eq, ha, and_true] using h
    · rw [if_neg ha]
      exact List.forall₂_same.mpr fun q _ => by rw [if_neg fun h => ha h.2.2]
  rw [Segment.faulted_eq]
  refine forall₂_chain (fun q q1 q2 h1 h2 => ?_) hdrop
    ((if atLimit then x.dropSlot i else x).answerQueued_queuedAnswered .segmentFault)
  unfold queuedFaulted
  by_cases hq : q.state = .queued
  · rw [if_pos hq]
    by_cases hl : q.slot = i ∧ atLimit
    · rw [if_pos ⟨hq, hl⟩] at h1
      obtain ⟨n, rfl⟩ := h1
      rw [if_neg (by rintro ⟨e, -⟩; cases e)] at h2
      rw [if_pos hl]
      exact ⟨n, h2⟩
    · rw [if_neg fun c => hl c.2] at h1
      subst h1
      rw [if_pos ⟨hq, rfl⟩] at h2
      rw [if_neg hl]
      exact h2
  · rw [if_neg fun c => hq c.1] at h1
    subst h1
    rw [if_neg hq]
    rwa [if_neg fun c => hq c.1] at h2

/-- The records of a poll that a stuck line ends, each by its state before (R96, R101, R102). -/
theorem Segment.stuck_records :
    List.Forall₂ (fun q q' : PassRecord => if q.isAnswered then q' = q
        else if q.state = .queued ∧ q.slot = i ∧ atLimit then ∃ n, q' = { q with state := .answered .notPresent [] n }
        else ∃ n, q' = { q with state := .answered .segmentFault [] n })
      x.records (if atLimit then (x.answerSent .segmentFault []).endPoll.dropSlot i
        else (x.answerSent .segmentFault []).endPoll).faulted.records := by
  refine forall₂_chain (fun q q1 q2 h1 h2 => ?_) (answerAll_forall (fun r => r.state = .sent) .segmentFault [] _ x.records)
    ((x.answerSent .segmentFault []).endPoll.faulted_records i atLimit)
  unfold queuedFaulted at h2
  cases hq : q.state with
  | sent =>
    rw [if_pos (decide_eq_true hq)] at h1
    obtain ⟨n, rfl⟩ := h1
    rw [if_neg (by exact fun e => by cases e)] at h2
    simp only [PassRecord.isAnswered, hq, reduceCtorEq, false_and, if_false, Bool.false_eq_true]
    exact ⟨n, h2⟩
  | queued =>
    rw [if_neg (by rw [hq]; decide)] at h1
    subst h1
    rw [if_pos hq] at h2
    obtain ⟨n, rfl⟩ := h2
    simp only [PassRecord.isAnswered, hq, true_and, Bool.false_eq_true, if_false]
    split <;> exact ⟨n, rfl⟩
  | answered st body n =>
    rw [if_neg (by rw [hq]; simp)] at h1
    subst h1
    rw [if_neg (by rw [hq]; simp)] at h2
    simp only [PassRecord.isAnswered, hq, if_true]
    exact h2

/-- The SENT record is answered at the rank of its poll's end (log entry 22). -/
theorem Segment.stuck_sent (h : x.sentWhole) {a b : List PassRecord} {q : PassRecord} (hr : x.records = a ++ q :: b)
    (hq : q.state = .sent) :
    ((if atLimit then (x.answerSent .segmentFault []).endPoll.dropSlot i
        else (x.answerSent .segmentFault []).endPoll).faulted.records[a.length]?.map fun q => (q.tag, q.state)) =
      some (q.tag, .answered .segmentFault [] (x.records.countP PassRecord.isAnswered)) := by
  have hsent : (x.answerSent .segmentFault []).endPoll.records[a.length]? =
      some { q with state := .answered .segmentFault [] (x.records.countP PassRecord.isAnswered) } := by
    rw [Segment.pollOver_eq h]
    unfold Segment.pollOver
    dsimp only
    rw [List.getElem?_map, hr, List.getElem?_append_right le_rfl, Nat.sub_self, List.getElem?_cons_zero, Option.map_some,
      if_pos hq]
  obtain ⟨q', hq', hrel⟩ := forall₂_at ((x.answerSent .segmentFault []).endPoll.faulted_records i atLimit) hsent
  unfold queuedFaulted at hrel
  rw [if_neg (by exact fun e => by cases e)] at hrel
  rw [hq', hrel]
  rfl

end

/-! ### The end of the step -/

/-- A segment at the end of a step is as before, or abandoned where the step entered SLEEP (R105). -/
theorem State.settle_seg_cases (t : State) (g : Seg) :
    t.settle.seg g = t.seg g ∨
      (t.settle.seg g = (t.seg g).abandoned ∧ t.settle.pmg.power = .sleep ∧ t.pmg.power = .parkWatch) := by
  by_cases h : t.pmg.power = .parkWatch ∧ t.pmg.watchSet = []
  · refine .inr ⟨?_, (State.settle_sleeps h.1 h.2).1, h.1⟩
    rw [State.settle_of_emptied h.1 h.2, deliver_shape t]
    cases g <;> rfl
  · exact .inl (State.settle_seg (fun hp hw => h ⟨hp, hw⟩) g)

/-- Settles O39: the idle line by the fault alone, the polling one by the miss and then the fault. -/
theorem lineStuck : Obligations.LineStuck := by
  constructor
  · intro s g x gone hs hstate hsend hpoll hen
    exact lineStuck_idle s g hs hstate hsend hpoll hen
  intro s g p x r gone drops atLimit missed hs hsent hrun hsend hpoll
  have hexec := execLineStuck_eq (Segment.listens_of (.inr hrun)) hsend
  have hstuck : s.stuckPoll g = (s.setSeg g (x.answerSent .segmentFault []).endPoll).handleMiss g p.slot := by
    unfold State.stuckPoll
    rw [hpoll]
    rfl
  rw [hstuck] at hexec
  obtain ⟨haround, hslots, -, hmiss⟩ := s.handleMiss_setSeg_spec g p.slot
    (y := (x.answerSent .segmentFault []).endPoll) rfl
  generalize (s.setSeg g (x.answerSent .segmentFault []).endPoll).handleMiss g p.slot = v at hexec haround hslots hmiss
  obtain ⟨hfault, -, hlost, hviews⟩ := v.fault_spec g
  generalize ((v.modSeg g Segment.enterFault).loseSegment g).afterPoll g = u at hexec hfault hlost hviews
  have hvseg : v.seg g = if r.atLimit g x.cfg then (x.answerSent .segmentFault []).endPoll.dropSlot p.slot
      else (x.answerSent .segmentFault []).endPoll :=
    (State.seg_of_around haround g).trans (by cases g <;> rfl)
  have hvcfg : (v.seg g).cfg = x.cfg := by rw [hvseg]; split <;> rfl
  have hvpoll : (v.seg g).poll = none := by rw [hvseg]; split <;> rfl
  have hseg : u.seg g = (v.seg g).faulted := (State.seg_of_around hfault g).trans (by cases g <;> rfl)
  have hpower : u.pmg.power = s.pmg.power := by
    have h1 : u.pmg.power = v.pmg.power := (State.power_of_around hfault).trans (congrArg Pmg.power (State.setSeg_pmg ..))
    have h2 : v.pmg.power = s.pmg.power := (State.power_of_around haround).trans (congrArg Pmg.power (State.setSeg_pmg ..))
    exact h1.trans h2
  have hlostView : ∀ q, v.view q = s.view q → v.lostView q = s.lostView q := fun q hq =>
    State.lostView_congr hq
      ((State.ignition_of_around haround).trans (congrArg Pmg.ignition (State.setSeg_pmg ..)))
      ((State.moving_of_around haround).trans (congrArg Pmg.moving (State.setSeg_pmg ..)))
      ((State.profiles_of_around haround).trans (State.setSeg_profiles ..))
      ((State.poscfg_of_around haround).trans (State.setSeg_poscfg ..))
  have hslot : u.settle.slots = u.slots := congrArg Records.slots u.settle_records
  have hpos : u.settle.positions = u.positions := congrArg Records.positions u.settle_records
  have hcase := u.settle_seg_cases g
  refine ⟨u.settle, hexec, ?_, ?_, ?_, fun i hi => ?_, fun q => ?_, fun hawake => ?_⟩
  · rcases hcase with h | ⟨h, -, -⟩
    · rw [h, hseg, Segment.faulted_eq]
      exact hvpoll
    · rw [h]
      rfl
  · rcases hcase with h | ⟨h, -, -⟩ <;> rw [h, hseg, Segment.faulted_eq]
    rfl
  · rw [hslot, hlost]
    unfold State.goes
    have hself : v.slots[p.slot] = r.missed g x.cfg := by
      simp only [hslots]
      exact put_get_self ..
    rw [hself, SlotRec.missed_faulted]
    exact r.faulted_cases g x.cfg
  · rw [hslot, hlost]
    unfold State.goes
    have hother : v.slots[i] = s.slots[i] := by
      simp only [hslots]
      exact put_get_ne _ _ hi
    rw [hother]
    rfl
  · rw [hpos]
    exact State.stuck_views hslots hlostView hmiss hviews q
  · have hkept : u.settle.seg g = u.seg g := by
      rcases hcase with h | ⟨-, h1, h2⟩
      · exact h
      · exact absurd (h1.symm.trans (hawake.trans (hpower.symm.trans h2))) (by decide)
    rw [hkept, hseg]
    refine ⟨?_, ?_, fun a b q hr hq => ?_⟩
    · rw [Segment.faulted_eq]
      dsimp only
      rw [hvcfg]
    · rw [hvseg]
      exact x.stuck_records p.slot (r.atLimit g x.cfg)
    · rw [hvseg]
      exact x.stuck_sent p.slot (r.atLimit g x.cfg) hsent hr hq

end Sys2Proof.Machine
end

section
/-! SUPPORT. The load arithmetic in the terms of the claims: cells to load and footprint, and the filter step. -/

namespace Sys2Proof.Machine

/-! ### Cells to load and footprint (R26 to R29) -/

section
variable (cfg : PosCfg) (cells : Vector Count 8)

/-- Cell `i` less its offset, and 0 below it (R26). -/
def correctedCell (i : Fin 8) : Nat :=
  if cfg.offsets[i].val ≤ cells[i].val then cells[i].val - cfg.offsets[i].val else 0

theorem correctedCells_eq : correctedCells cfg cells = (List.finRange 8).map (correctedCell cfg cells) := rfl

theorem correctedCell_le (i : Fin 8) : correctedCell cfg cells i ≤ 1023 := by
  have := cells[i].isLt
  unfold correctedCell
  split <;> omega

theorem loadOf_eq : loadOf cfg cells = (∑ i, correctedCell cfg cells i) * cfg.gain / 64 := by
  rw [loadOf, correctedCells_eq, Fin.sum_univ_def]

/-- Eight full cells at the greatest gain bring 16240 (R28). -/
theorem loadOf_le_of_gain (h : cfg.gain ≤ 127) : loadOf cfg cells ≤ 16240 := by
  have hsum : ∑ i, correctedCell cfg cells i ≤ 8 * 1023 :=
    (Finset.sum_le_card_nsmul _ _ _ fun i _ => correctedCell_le cfg cells i).trans_eq (by simp)
  have hprod := Nat.mul_le_mul hsum h
  rw [loadOf_eq]
  omega

theorem footprintOf_eq_card :
    footprintOf cfg cells = (Finset.univ.filter fun i => cfg.tCell ≤ correctedCell cfg cells i).card := by
  rw [footprintOf, correctedCells_eq, List.countP_map, ← List.toFinset_finRange,
    (List.nodup_finRange 8).card_eq_countP]
  rfl

end

/-! ### The filter step (R31, R32) -/

section
variable (k f l : Nat)

/-- F and the floor of its step together lie at or above the lesser of F and L. -/
theorem min_le_add_ediv : min (f : Int) l ≤ f + ((l : Int) - f) / 2 ^ k := by
  have hk : (0 : Int) < 2 ^ k := by positivity
  rcases le_total (f : Int) l with h | h
  · have := Int.ediv_nonneg (show (0 : Int) ≤ l - f by omega) hk.le
    omega
  · have := Int.le_ediv_of_mul_le hk (show ((l : Int) - f) * 2 ^ k ≤ l - f by nlinarith)
    omega

/-- The step never takes F below 0, so the number it ends at is F plus the floor. -/
theorem filterStep_cast : (filterStep k f l : Int) = f + ((l : Int) - f) / 2 ^ k := by
  have hmin := min_le_add_ediv k f l
  unfold filterStep
  rw [Int.fdiv_eq_ediv_of_nonneg _ (by positivity)]
  exact Int.toNat_of_nonneg (by omega)

theorem min_le_filterStep : min f l ≤ filterStep k f l := by
  have hmin := min_le_add_ediv k f l
  rw [← filterStep_cast] at hmin
  omega

theorem filterStep_le_max : filterStep k f l ≤ max f l := filterStep_le (le_max_left f l) (le_max_right f l)

/-- The floor goes toward minus infinity, so a falling load always moves F (R32). -/
theorem filterStep_lt (h : l < f) : filterStep k f l < f := by
  have := Int.ediv_neg_of_neg_of_pos (show (l : Int) - f < 0 by omega) (show (0 : Int) < 2 ^ k by positivity)
  have := filterStep_cast k f l
  omega

theorem filterStep_zero : filterStep 0 f l = l := by
  have := filterStep_cast 0 f l
  rw [pow_zero, Int.ediv_one] at this
  omega

end

/-- Settles O40, by the equations for load and footprint and the floor that a filter step adds. -/
theorem loadArithmetic : Obligations.LoadArithmetic := by
  refine ⟨fun cfg cells => ?_, fun k f l hf hl => ?_⟩
  · intro c sum
    have hload : loadOf cfg cells = sum * cfg.gain / 64 := by
      rw [loadOf_eq, Fin.sum_univ_eight]
      rfl
    refine ⟨?_, loadOf_le_of_gain cfg cells, footprintOf_le cfg cells, footprintOf_eq_card cfg cells⟩
    rw [hload]
    omega
  · have hk : (0 : Int) < 2 ^ k.val := by positivity
    have hmin := min_le_filterStep k f l
    exact ⟨⟨_, Int.mul_ediv_self_le hk.ne', by rw [mul_add_one]; exact Int.lt_mul_ediv_self_add hk,
        filterStep_cast k f l⟩,
      filterStep_le hf hl, hmin, filterStep_le_max k f l, filterStep_lt k f l, fun h => by omega,
      fun h => h ▸ filterStep_zero f l⟩

end Sys2Proof.Machine
end

section
/-! SUPPORT. The band of a load as a place among the thresholds, the two passes over it, and the buckle debounce. -/

namespace Sys2Proof.Machine

/-! ### The thresholds (section 2.4) -/

section
variable {cfg : PosCfg} {f : Nat} {b u d : Band}

theorem Band.code_up (h : b.up = some u) : u.code = b.code + 1 := by
  cases b <;> cases h <;> rfl

theorem Band.down_none : b.down = none ↔ b = .empty := by cases b <;> decide

theorem Band.code_down (h : b.down = some d) : b.code = d.code + 1 := by
  cases b <;> cases h <;> rfl

theorem Band.code_injective : Function.Injective Band.code := by
  intro a b h
  cases a <;> cases b <;> cases h <;> rfl

theorem Band.code_le (b : Band) : b.code ≤ 3 := by cases b <;> decide

theorem Band.threshold_le_up (hc : cfg.lawful) (h : b.up = some u) : b.threshold cfg ≤ u.threshold cfg := by
  obtain ⟨h1, h2, -⟩ := hc
  cases b <;> cases h
  exacts [Nat.zero_le _, h1.le, h2.le]

theorem Band.threshold_le_adult (hc : cfg.lawful) (b : Band) : b.threshold cfg ≤ cfg.tAdult := by
  obtain ⟨h1, h2, -⟩ := hc
  cases b
  exacts [Nat.zero_le _, (h1.trans h2).le, h2.le, le_rfl]

/-- Only EMPTY begins within the hysteresis of 0. -/
theorem Band.hyst_lt_threshold (hc : cfg.lawful) (h : b ≠ .empty) : cfg.hyst < b.threshold cfg := by
  obtain ⟨h1, h2, h3, -⟩ := hc
  cases b
  exacts [absurd rfl h, h3, h3.trans h1, h3.trans (h1.trans h2)]

/-! ### The seeded band (R33) -/

/-- The seeded band is the band whose threshold is reached and whose next threshold is not. -/
theorem seedBand_eq_of (hc : cfg.lawful) (hb : b.threshold cfg ≤ f) (hu : ∀ u, b.up = some u → f < u.threshold cfg) :
    seedBand cfg f = b := by
  obtain ⟨h1, h2, -⟩ := hc
  unfold seedBand
  cases b with
  | empty => exact if_pos (hu _ rfl)
  | light =>
    have hobj : cfg.tObj ≤ f := hb
    rw [if_neg hobj.not_gt]
    exact if_pos (hu _ rfl)
  | small =>
    have hsmall : cfg.tSmall ≤ f := hb
    rw [if_neg (h1.le.trans hsmall).not_gt, if_neg hsmall.not_gt]
    exact if_pos (hu _ rfl)
  | large =>
    have hadult : cfg.tAdult ≤ f := hb
    rw [if_neg ((h1.trans h2).le.trans hadult).not_gt, if_neg (h2.le.trans hadult).not_gt, if_neg hadult.not_gt]

/-! ### The upward pass (R34) -/

theorem bandRise_stays (hu : ∀ u, b.up = some u → f < u.threshold cfg) (n : Nat) : bandRise cfg f n b = b := by
  cases n with
  | zero => rfl
  | succ n =>
    unfold bandRise
    cases h : b.up with
    | none => rfl
    | some u => exact if_neg (Nat.not_le.mpr (hu u h))

/-- From a band whose threshold is reached, an upward pass with room to LARGE ends at the seeded band. -/
theorem bandRise_eq_seedBand (hc : cfg.lawful) (n : Nat) (hb : b.threshold cfg ≤ f) (hn : 3 ≤ b.code + n) :
    bandRise cfg f n b = seedBand cfg f := by
  induction n generalizing b with
  | zero =>
    have hlarge : b = .large := by
      cases b with
      | large => rfl
      | _ => exact absurd hn (by decide)
    subst hlarge
    exact (seedBand_eq_of hc hb fun u h => by cases h).symm
  | succ n ih =>
    by_cases hu : ∃ u, b.up = some u ∧ u.threshold cfg ≤ f
    · obtain ⟨u, h, hle⟩ := hu
      have hcode := Band.code_up h
      rw [← ih hle (by omega)]
      conv_lhs => unfold bandRise
      rw [h]
      exact if_pos hle
    · have hu' : ∀ u, b.up = some u → f < u.threshold cfg := fun u h => Nat.not_le.mp fun hle => hu ⟨u, h, hle⟩
      rw [bandRise_stays hu', seedBand_eq_of hc hb hu']

/-! ### The downward pass (R34, R35) -/

theorem bandFall_stays (h : b = .empty ∨ b.threshold cfg ≤ f + cfg.hyst) (n : Nat) : bandFall cfg f n b = b := by
  cases n with
  | zero => rfl
  | succ n =>
    unfold bandFall
    cases hd : b.down with
    | none => rfl
    | some d =>
      rcases h with rfl | h
      · cases hd
      · exact if_neg (by omega)

/-- A downward pass with room to EMPTY stops at the first band that is EMPTY or begins within the hysteresis above F. -/
theorem bandFall_spec (n : Nat) (hn : b.code ≤ n) :
    (bandFall cfg f n b).code ≤ b.code ∧
      (bandFall cfg f n b = .empty ∨ (bandFall cfg f n b).threshold cfg ≤ f + cfg.hyst) ∧
        ∀ m : Band, (bandFall cfg f n b).code < m.code → m.code ≤ b.code → f + cfg.hyst < m.threshold cfg := by
  induction n generalizing b with
  | zero =>
    have hempty : b = .empty := Band.code_injective (Nat.le_zero.mp hn)
    exact ⟨le_rfl, .inl hempty, fun m h1 h2 => absurd h1 (Nat.not_lt.mpr h2)⟩
  | succ n ih =>
    by_cases h : b = .empty ∨ b.threshold cfg ≤ f + cfg.hyst
    · rw [bandFall_stays h]
      exact ⟨le_rfl, h, fun m h1 h2 => absurd h1 (Nat.not_lt.mpr h2)⟩
    · obtain ⟨hne, hlt⟩ := not_or.mp h
      obtain ⟨d, hd⟩ := Option.ne_none_iff_exists'.mp fun e => hne (Band.down_none.mp e)
      have hcode := Band.code_down hd
      have hstep : bandFall cfg f (n + 1) b = bandFall cfg f n d := by
        conv_lhs => unfold bandFall
        rw [hd]
        exact if_pos (by omega)
      obtain ⟨h1, h2, h3⟩ := ih (b := d) (by omega)
      rw [hstep]
      refine ⟨by omega, h2, fun m hm hmb => ?_⟩
      rcases Nat.lt_or_ge d.code m.code with hdm | hdm
      · rw [Band.code_injective (show m.code = b.code by omega)]
        exact Nat.not_le.mp hlt
      · exact h3 m hm hdm

/-! ### The band after a filtered load (R34, R35) -/

/-- Where the band's threshold is reached, the passes end at the seeded band. -/
theorem moveBand_of_reached (hc : cfg.lawful) (hb : b.threshold cfg ≤ f) : moveBand cfg f b = seedBand cfg f := by
  have hrise := bandRise_eq_seedBand hc 3 hb (Nat.le_add_left ..)
  unfold moveBand
  dsimp only
  split
  · rename_i h
    rw [bandFall_stays (.inr (hb.trans (Nat.le_add_right ..))), ← hrise, h]
  · exact hrise

/-- Only where the upward pass moves nothing is there a downward pass. -/
theorem moveBand_of_not_rising (hu : ∀ u, b.up = some u → f < u.threshold cfg) :
    moveBand cfg f b = bandFall cfg f 3 b := if_pos (bandRise_stays hu 3)

/-- F of 0 brings EMPTY (R35). -/
theorem moveBand_zero (hc : cfg.lawful) (b : Band) : moveBand cfg 0 b = .empty := by
  have hu : ∀ u, b.up = some u → 0 < u.threshold cfg := fun u h =>
    (Nat.zero_le _).trans_lt (Band.hyst_lt_threshold hc (by rintro rfl; cases b <;> cases h))
  obtain ⟨-, h, -⟩ := bandFall_spec (cfg := cfg) (f := 0) 3 b.code_le
  rw [moveBand_of_not_rising hu]
  by_contra he
  have hle := h.resolve_left he
  have hlt := Band.hyst_lt_threshold hc he
  omega

end

/-- Settles O41, by the place of the seeded band among the thresholds, the two passes and the cases of R38. -/
theorem bandAndBuckle : Obligations.BandAndBuckle := by
  refine ⟨fun cfg f b hc => ?_, fun reported now cand => ?_⟩
  · refine ⟨fun h => seedBand_eq_of hc (Nat.zero_le f) ?_, fun h1 h2 => seedBand_eq_of hc h1 ?_,
      fun h1 h2 => seedBand_eq_of hc h1 ?_, fun h => ?_, moveBand_zero hc b, ?_, fun hu => ⟨fun h => ?_, fun hne h => ?_⟩⟩
    · rintro u ⟨⟩; exact h
    · rintro u ⟨⟩; exact h2
    · rintro u ⟨⟩; exact h2
    · have hseed : seedBand cfg f = .large := seedBand_eq_of hc h (by rintro u ⟨⟩)
      exact ⟨hseed, (moveBand_of_reached hc ((b.threshold_le_adult hc).trans h)).trans hseed⟩
    · rintro ⟨u, hu, hle⟩
      exact moveBand_of_reached hc ((Band.threshold_le_up hc hu).trans hle)
    · rw [moveBand_of_not_rising hu, bandFall_stays h]
    · obtain ⟨h1, h2, h3⟩ := bandFall_spec (cfg := cfg) (f := f) 3 b.code_le
      refine ⟨_, moveBand_of_not_rising hu, lt_of_le_of_ne h1 fun he => ?_, h2, h3⟩
      rw [Band.code_injective he] at h2
      exact h2.elim hne fun hle => absurd h (Nat.not_lt.mpr hle)
  · unfold debounce
    refine ⟨fun h => if_pos h, fun h hn => ?_, fun h hc => ?_, fun h hc => ?_⟩
    · rw [if_neg h, if_neg (by rw [hn]; exact nofun)]
    · rw [if_neg h, if_pos hc]
    · rw [if_neg h, if_neg hc]

end Sys2Proof.Machine
end

section
/-! SUPPORT. LSU: what a scan start and a completed conversion do, channel by channel (R69 to R75). -/

namespace Sys2Proof.Machine

/-- LSU after the result of channel `c` is written and the channels `cs` are left (R70). -/
def Lsu.written (l : Lsu) (c : Channel) (n : Count) (cs : List Channel) : Lsu :=
  { l with results := put l.results c.index n, remaining := cs }

/-! ### Results and what they say (R70 to R74) -/

section
variable (l : Lsu) (n : Count) (cs : List Channel) (a b : Bool)

theorem buckleOfResult_eq (n : Nat) :
    buckleOfResult n = if 100 ≤ n ∧ n ≤ 399 then .latched else if 400 ≤ n ∧ n ≤ 799 then .opened else .fault := by
  unfold buckleOfResult
  split_ifs <;> first | rfl | omega

theorem Channel.mat0_index (i : Fin 8) : (Channel.mat0 i).index = ⟨i.val, by omega⟩ :=
  Fin.ext (Nat.mod_eq_of_lt (by omega))

theorem Channel.mat1_index (i : Fin 8) : (Channel.mat1 i).index = ⟨9 + i.val, by omega⟩ :=
  Fin.ext (Nat.mod_eq_of_lt (by omega))

theorem Lsu.written_get_self (c : Channel) : (l.written c n cs).results[c.index] = n := put_get_self ..

theorem Lsu.written_get_at {c d : Channel} {k : Fin 19} (hd : d.index = k) (hk : k ≠ c.index) :
    (l.written c n cs).results[d.index] = l.results[k] := by
  subst hd
  exact put_get_ne _ _ hk

/-- The driver's report: the mat results before, the buckle converted now, anchors FREE, tag NONE (R71 to R73). -/
theorem Lsu.report0_written :
    (l.written .bkl0 n cs).report0 =
      { cells := Vector.ofFn fun i : Fin 8 => l.results[(⟨i.val, by omega⟩ : Fin 19)]
        buckle := buckleOfResult n.val, anchorA := false, anchorB := false, tag := .none, supplyLow := l.low } := by
  have hcell (i : Fin 8) :
      (l.written .bkl0 n cs).results[(Channel.mat0 i).index] = l.results[(⟨i.val, by omega⟩ : Fin 19)] :=
    Lsu.written_get_at l n cs (Channel.mat0_index i) (Fin.ne_of_val_ne (Nat.ne_of_lt i.isLt))
  unfold Lsu.report0
  rw [Lsu.written_get_self, funext hcell]
  rfl

/-- The front passenger's report: as the driver's, with the anchors read at the pins (R71 to R73). -/
theorem Lsu.report1_written :
    (l.written .bkl1 n cs).report1 a b =
      { cells := Vector.ofFn fun i : Fin 8 => l.results[(⟨9 + i.val, by omega⟩ : Fin 19)]
        buckle := buckleOfResult n.val, anchorA := a, anchorB := b, tag := .none, supplyLow := l.low } := by
  have hcell (i : Fin 8) :
      (l.written .bkl1 n cs).results[(Channel.mat1 i).index] = l.results[(⟨9 + i.val, by omega⟩ : Fin 19)] :=
    Lsu.written_get_at l n cs (Channel.mat1_index i) (Fin.ne_of_val_ne (Nat.ne_of_lt (Nat.add_lt_add_left i.isLt 9)))
  unfold Lsu.report1
  rw [Lsu.written_get_self, funext hcell]
  rfl

end

/-- The supply state moves by the copy that the scan took (R74, R75). -/
theorem Lsu.supplyUpdate_of_copy {l : Lsu} {k : LocalCfg} (n : Count) (h : l.copy = some k) :
    l.supplyUpdate n =
      { l with
        lastSupply := n, low := supplyAfter k l.low n.val
        supplyLowFlag := l.supplyLowFlag || (supplyAfter k l.low n.val && !l.low) } := by
  unfold Lsu.supplyUpdate
  rw [h]
  rfl

/-! ### A conversion completes (R70, R71, R74) -/

/-- The state with LSU as given. -/
def State.withLsu (s : State) (x : Lsu) : State := { s with lsu := x }

section
variable {s : State} {c : Channel} {cs : List Channel} (n : Count) (a b : Bool)

theorem State.afterConversion_mat {i : Fin 8} (h : c = .mat0 i ∨ c = .mat1 i) : s.afterConversion c n a b = s := by
  rcases h with rfl | rfl <;> rfl

theorem State.afterConversion_unfitted
    (h : c = .bkl0 ∧ s.lsu.cfg.fitted0 = false ∨ c = .bkl1 ∧ s.lsu.cfg.fitted1 = false) :
    s.afterConversion c n a b = s := by
  rcases h with ⟨rfl, hf⟩ | ⟨rfl, hf⟩ <;> exact if_neg (by rw [hf]; exact Bool.false_ne_true)

theorem State.afterConversion_bkl0 (h : s.lsu.cfg.fitted0 = true) :
    s.afterConversion .bkl0 n a b =
      (s.withLsu { s.lsu with seq0 := s.lsu.seq0 + 1 }).takeBlock 0 .loc s.lsu.report0 := if_pos h

theorem State.afterConversion_bkl1 (h : s.lsu.cfg.fitted1 = true) :
    s.afterConversion .bkl1 n a b =
      (s.withLsu { s.lsu with seq1 := s.lsu.seq1 + 1 }).takeBlock 1 .loc (s.lsu.report1 a b) := if_pos h

theorem State.takeBlock_lsu (s : State) (p : Pos) (src : Source) (blk : Block) : (s.takeBlock p src blk).lsu = s.lsu :=
  (congrArg State.lsu (s.takeBlock_around p src blk) :)

/-- No channel's effect touches a scan start that waits (R79). -/
theorem State.afterConversion_followUp : (s.afterConversion c n a b).lsu.followUp = s.lsu.followUp := by
  unfold State.afterConversion
  cases c with
  | bkl0 | bkl1 =>
    dsimp only
    split
    · rw [State.takeBlock_lsu]
    · rfl
  | _ => rfl

/-- A conversion after which no waiting scan start follows: the result is written, and the channel's own effect comes
before the end of the step. -/
theorem execConversion_eq (hr : s.lsu.remaining = c :: cs) (hf : cs ≠ [] ∨ s.lsu.followUp = false) :
    exec (.conversionComplete n a b) s =
      .next ((s.withLsu (s.lsu.written c n cs)).afterConversion c n a b).settle := by
  have hne : ¬s.lsu.remaining = [] := by rw [hr]; exact List.cons_ne_nil _ _
  refine congrArg Host.Outcome.next ((if_neg hne).trans (congrArg State.settle ?_))
  unfold State.conversion
  rw [hr]
  refine if_neg fun ⟨hnil, hwaits⟩ => ?_
  rw [State.afterConversion_followUp] at hwaits
  exact hf.elim (fun h => h hnil) (fun h => absurd (h.symm.trans hwaits) (by decide))

/-- A conversion with no effect outside LSU leaves a settled state settled. -/
theorem execConversion_lsu {x : Lsu} (hs : s.settled) (hr : s.lsu.remaining = c :: cs)
    (hf : cs ≠ [] ∨ s.lsu.followUp = false)
    (hc : (s.withLsu (s.lsu.written c n cs)).afterConversion c n a b = s.withLsu x) :
    exec (.conversionComplete n a b) s = .next (s.withLsu x) := by
  have hx : (s.withLsu x).settled := hs
  rw [execConversion_eq n a b hr hf, hc, State.settle_of_settled hx]

end

/-- Outside PARK_WATCH a step that hands a block to a position changes its record, and around it image, watch set and
CHD alone (R24). -/
theorem State.takeBlock_settle (s : State) (p : Pos) (src : Source) (blk : Block) (hs : s.settled)
    (hp : s.pmg.power ≠ .parkWatch) :
    (s.takeBlock p src blk).settle = { s with
      positions := put s.positions p (s.blockTaken p src blk)
      pnd := { s.pnd with image := (s.takeBlock p src blk).settle.pnd.image }
      pmg := { s.pmg with watchSet := (s.takeBlock p src blk).settle.pmg.watchSet }
      chd := (s.takeBlock p src blk).settle.chd, free := (s.takeBlock p src blk).settle.free } := by
  have haround := s.takeBlock_around p src blk
  have hviews := State.settle_of_views haround hs.1 hp
  have hawake : (s.takeBlock p src blk).pmg.power = .parkWatch → (s.takeBlock p src blk).pmg.watchSet ≠ [] :=
    fun h => absurd ((State.power_of_around haround).symm.trans h) hp
  rw [State.takeBlock_positions, ← (State.settle_positions hawake).2, ← State.settle_pmg hawake] at hviews
  exact hviews

/-- Settles O45: a scan start in RUN, and the completed conversion of each channel. -/
theorem localScan : Obligations.LocalScan := by
  refine ⟨fun s hp ht hr => ?_, fun s n a b c cs => ?_⟩
  · refine congrArg Host.Outcome.next ((if_pos ⟨hp, ht⟩).trans ((if_pos hr).trans ?_))
    unfold State.startScan
    dsimp only
    rw [hp]
    rfl
  · intro l written buckle front hr hf hs
    have hbuckle : buckle = buckleOfResult n.val := (buckleOfResult_eq n.val).symm
    refine ⟨⟨fun i hc => ?_, fun hc => ?_⟩, ?_, ?_, ?_⟩
    · exact execConversion_lsu n a b hs hr hf (State.afterConversion_mat n a b hc)
    · exact execConversion_lsu n a b hs hr hf (State.afterConversion_unfitted n a b hc)
    · rintro rfl hfit hp
      refine ⟨_, execConversion_eq n a b hr hf, ?_⟩
      rw [State.afterConversion_bkl0 (s := s.withLsu (l.written .bkl0 n cs)) n a b hfit, hbuckle,
        ← Lsu.report0_written l n cs]
      exact State.takeBlock_settle _ 0 .loc _ hs hp
    · rintro rfl hfit hp
      refine ⟨_, execConversion_eq n a b hr hf, ?_⟩
      rw [State.afterConversion_bkl1 (s := s.withLsu (l.written .bkl1 n cs)) n a b hfit, hbuckle,
        ← Lsu.report1_written l n cs a b]
      exact State.takeBlock_settle _ 1 .loc _ hs hp
    · rintro k rfl hcopy
      exact execConversion_lsu n a b hs hr hf
        (congrArg s.withLsu (Lsu.supplyUpdate_of_copy (l := l.written .vhalf n cs) n hcopy))

end Sys2Proof.Machine
end

section
/-! SUPPORT. Confirmation: the count a candidate reaches, and the three outcomes of R61. -/

namespace Sys2Proof.Machine

/-! ### Counts (R60, R61) -/

/-- VACANT and OBJECT are confirmed by the down-confirm count, every other class by the up-confirm count (R60). -/
theorem requiredCount_eq (cfg : PosCfg) (c : Cls) :
    requiredCount cfg c = if c = .vacant ∨ c = .object then cfg.downConfirm else cfg.upConfirm := by
  cases c <;> rfl

section
variable {pending : Option Pending} {c : Cls}

/-- The pending candidate itself counts on (R61, step 3). -/
theorem nextCount_of_pending {q : Pending} (hq : pending = some q) (hc : q.cls = c) :
    nextCount pending c = q.count + 1 := by
  subst hq
  exact if_pos hc

/-- A candidate that is not the pending one starts at 1 (R61, step 2). -/
theorem nextCount_of_new (h : ∀ q, pending = some q → q.cls ≠ c) : nextCount pending c = 1 := by
  cases pending with
  | none => rfl
  | some q => exact if_neg (h q rfl)

end

/-! ### The outcomes (R61, R62, R63) -/

section
variable {cfg : PosCfg} {r : Position} {c : Cls}

theorem Position.confirm_same (h : c = r.cls) : r.confirm cfg c = { r with pending := none } := if_pos h

theorem Position.confirm_counts (h : c ≠ r.cls) (hn : nextCount r.pending c < requiredCount cfg c) :
    r.confirm cfg c = { r with pending := some { cls := c, count := nextCount r.pending c } } :=
  (if_neg h).trans (if_neg (Nat.not_le.mpr hn))

theorem Position.confirm_reached (h : c ≠ r.cls) (hn : requiredCount cfg c ≤ nextCount r.pending c) :
    r.confirm cfg c = { r with
      cls := c, pending := none, owed := true
      armed := if c = .vacant then Vector.replicate 24 0 else r.armed } :=
  (if_neg h).trans (if_pos hn)

end

/-- Settles O43: the count the candidate reaches, then the outcome by the required count. -/
theorem confirmation : Obligations.Confirmation := by
  intro cfg r c n needed
  have hneeded : requiredCount cfg c = needed := requiredCount_eq cfg c
  refine ⟨Position.confirm_same, fun hc hcount => ?_⟩
  have hn : nextCount r.pending c = n := by
    rcases hcount with ⟨q, hq, hqc, rfl⟩ | ⟨rfl, hnew⟩
    · exact nextCount_of_pending hq hqc
    · exact nextCount_of_new hnew
  subst hn
  rw [← hneeded]
  exact ⟨Position.confirm_counts hc, Position.confirm_reached hc⟩

end Sys2Proof.Machine
end

section
/-! SUPPORT. The scan of the RULE table: its matching rules by index, its candidate, and the armed map after it. -/

namespace Sys2Proof.Machine

/-! ### Which rules match (R46, R53, R54) -/

theorem AnchorCond.holds_iff (a : AnchorCond) (x : Bool) :
    a.holds x = true ↔ a = .any ∨ (a = .engaged ↔ x = true) := by
  cases a <;> cases x <;> decide

section
variable {rules : Rules} {snap : Vector Nat 24} {p : Pos} {r : Position} {i : RuleIx}

theorem eligible_iff : eligible rules snap p i = true ↔
    rules[i].valid = true ∧ rules[i].positions.getLsbD p.val = true ∧ ∀ j, rules[i].pred = some j → snap[j] ≠ 0 := by
  unfold eligible armedIn
  cases rules[i].pred <;> simp [and_assoc]

/-- The scan's own test of a rule is R53 with the conditions of R46. -/
theorem ruleHits_iff :
    (eligible rules snap p i && rules[i].matchesAt p r) = true ↔ ruleHits rules snap p r i := by
  rw [Bool.and_eq_true, eligible_iff]
  simp only [RuleEntry.matchesAt, ruleHits, Bool.and_eq_true, decide_eq_true_eq, AnchorCond.holds_iff]
  tauto

/-! ### The scan, rule by rule (R54) -/

variable {is : List RuleIx}

theorem scanRules_miss (h : ¬ruleHits rules snap p r i) :
    scanRules rules snap p r (i :: is) = scanRules rules snap p r is :=
  if_neg fun e => h (ruleHits_iff.mp e)

theorem scanRules_class {c : Cls} (h : ruleHits rules snap p r i) (ho : rules[i].outcome = some c) :
    scanRules rules snap p r (i :: is) = ([], some (i, c)) := by
  refine (if_pos (ruleHits_iff.mpr h)).trans ?_
  rw [ho]

theorem scanRules_arm (h : ruleHits rules snap p r i) (ho : rules[i].outcome = none) :
    scanRules rules snap p r (i :: is) =
      (i :: (scanRules rules snap p r is).1, (scanRules rules snap p r is).2) := by
  refine (if_pos (ruleHits_iff.mpr h)).trans ?_
  rw [ho]

/-- The class of the matched class rule is its outcome. -/
theorem scanRules_outcome {c : Cls} (h : (scanRules rules snap p r is).2 = some (i, c)) :
    rules[i].outcome = some c := by
  induction is with
  | nil => cases h
  | cons j js ih =>
    by_cases hj : ruleHits rules snap p r j
    · cases ho : rules[j].outcome with
      | none =>
        rw [scanRules_arm hj ho] at h
        exact ih h
      | some d =>
        rw [scanRules_class hj ho] at h
        cases h
        exact ho
    · rw [scanRules_miss hj] at h
      exact ih h

theorem mem_matchingRules {scan : List RuleIx × Option (RuleIx × Cls)} :
    i ∈ matchingRules scan ↔ i ∈ scan.1 ∨ ∃ c, scan.2 = some (i, c) := by
  simp [matchingRules]

/-- Rule `i` of a list of rules hits, and no class rule of the list hits at a lower index (R54). -/
def matchesIn (rules : Rules) (snap : Vector Nat 24) (p : Pos) (r : Position) (is : List RuleIx) (i : RuleIx) : Prop :=
  i ∈ is ∧ ruleHits rules snap p r i ∧ ∀ j ∈ is, j < i → ruleHits rules snap p r j → rules[j].outcome = none

/-- The lowest rule of a list matches where it hits; where it hits with a class, no rule above it matches. -/
theorem matchesIn_cons {k : RuleIx} (hk : ∀ j ∈ is, k < j) :
    matchesIn rules snap p r (k :: is) i ↔
      (i = k ∧ ruleHits rules snap p r k) ∨
        ((ruleHits rules snap p r k → rules[k].outcome = none) ∧ matchesIn rules snap p r is i) := by
  unfold matchesIn
  rw [List.forall_mem_cons, List.mem_cons]
  constructor
  · rintro ⟨rfl | hi, hhit, hkhit, hbefore⟩
    · exact .inl ⟨rfl, hhit⟩
    · exact .inr ⟨hkhit (hk i hi), hi, hhit, hbefore⟩
  · rintro (⟨rfl, hhit⟩ | ⟨hkhit, hi, hhit, hbefore⟩)
    · exact ⟨.inl rfl, hhit, fun h => absurd h (lt_irrefl _), fun j hj h => absurd h (lt_asymm (hk j hj))⟩
    · exact ⟨.inr hi, hhit, fun _ => hkhit, hbefore⟩

/-- The scan's matching rules are those of R54. -/
theorem mem_matchingRules_scan (hs : is.Pairwise (· < ·)) :
    i ∈ matchingRules (scanRules rules snap p r is) ↔ matchesIn rules snap p r is i := by
  induction is with
  | nil => exact iff_of_false nofun fun h => nomatch h.1
  | cons k ks ih =>
    obtain ⟨hk, hks⟩ := List.pairwise_cons.mp hs
    rw [matchesIn_cons hk, ← ih hks]
    by_cases hit : ruleHits rules snap p r k
    · cases ho : rules[k].outcome with
      | none =>
        rw [scanRules_arm hit ho]
        simp [mem_matchingRules, hit, or_assoc]
      | some c =>
        rw [scanRules_class hit ho]
        simpa [mem_matchingRules, hit] using eq_comm
    · rw [scanRules_miss hit]
      simp [hit]

end

/-! ### The whole table (R54 to R58) -/

section
variable (rules : Rules) (snap : Vector Nat 24) (p : Pos) (r : Position) (i : RuleIx)

/-- The scan of the table's 24 rules in rising order. -/
def tableScan : List RuleIx × Option (RuleIx × Cls) := scanRules rules snap p r (List.finRange 24)

theorem mem_matchingRules_tableScan :
    i ∈ matchingRules (tableScan rules snap p r) ↔ ruleMatches rules snap p r i := by
  unfold tableScan ruleMatches
  rw [mem_matchingRules_scan (List.pairwise_lt_finRange 24)]
  simp only [matchesIn, List.mem_finRange, true_and, true_imp_iff]

/-- The noted rules are the matching ARM rules (R55). -/
theorem mem_tableScan_noted :
    i ∈ (tableScan rules snap p r).1 ↔ ruleMatches rules snap p r i ∧ rules[i].outcome = none := by
  rw [← mem_matchingRules_tableScan, mem_matchingRules]
  constructor
  · exact fun h => ⟨.inl h, (scanRules_noted h).2⟩
  · rintro ⟨h | ⟨c, hc⟩, ho⟩
    · exact h
    · exact absurd ((scanRules_outcome hc).symm.trans ho) nofun

/-- The matched class rule is the matching rule whose outcome is a class (R54). -/
theorem tableScan_class_iff (c : Cls) :
    (tableScan rules snap p r).2 = some (i, c) ↔ ruleMatches rules snap p r i ∧ rules[i].outcome = some c := by
  rw [← mem_matchingRules_tableScan, mem_matchingRules]
  constructor
  · exact fun h => ⟨.inr ⟨c, h⟩, scanRules_outcome h⟩
  · rintro ⟨h | ⟨d, hd⟩, ho⟩
    · exact absurd ((scanRules_noted h).2.symm.trans ho) nofun
    · cases (scanRules_outcome hd).symm.trans ho
      exact hd

/-- The armed map of R55 to R57 by index. -/
theorem armedAfter_get (scan : List RuleIx × Option (RuleIx × Cls)) :
    (armedAfter rules snap scan)[i] =
      if i ∈ scan.1 ∨ (snap[i] ≠ 0 ∧ ∃ m ∈ matchingRules scan, i ∈ ancestors rules m) then rules[i].window
      else snap[i] - 1 := by
  simp [armedAfter, armedIn]

/-- What stands at its own window after the scan: the noted rules and the armed ancestors of the matching ones. -/
theorem rearmed_iff :
    (i ∈ (tableScan rules snap p r).1 ∨
        (snap[i] ≠ 0 ∧ ∃ m ∈ matchingRules (tableScan rules snap p r), i ∈ ancestors rules m)) ↔
      (ruleMatches rules snap p r i ∧ rules[i].outcome = none) ∨
        (snap[i] ≠ 0 ∧ ∃ m : RuleIx, ruleMatches rules snap p r m ∧ i ∈ (chainOf rules 24 m).tail) := by
  simp only [mem_tableScan_noted, mem_matchingRules_tableScan, ancestors]

end

/-- Settles O42: the candidate by the matched class rule, the armed map by the matching rules. -/
theorem ruleEvaluation : Obligations.RuleEvaluation := by
  intro rules snap p r scan takes
  refine ⟨fun i c hi ho => ?_, fun harm => ?_, fun i => ⟨fun h => ?_, fun hn ha => ?_⟩⟩
  · have hscan : scan.2 = some (i, c) := (tableScan_class_iff rules snap p r i c).mpr ⟨hi, ho⟩
    unfold candidateOf
    rw [hscan]
  · have hscan : scan.2 = none := by
      rw [Option.eq_none_iff_forall_ne_some]
      rintro ⟨i, c⟩ hic
      obtain ⟨hi, ho⟩ := (tableScan_class_iff rules snap p r i c).mp hic
      exact absurd ((harm i hi).symm.trans ho) nofun
    unfold candidateOf
    rw [hscan]
  · exact (armedAfter_get rules snap i scan).trans (if_pos ((rearmed_iff rules snap p r i).mpr h))
  · exact (armedAfter_get rules snap i scan).trans
      (if_neg fun h => ((rearmed_iff rules snap p r i).mp h).elim hn ha)

end Sys2Proof.Machine
end

section
/-! SUPPORT. A RULE write: the checks of an entry in their order, and the rule disarmed everywhere. -/

namespace Sys2Proof.Machine

/-! ### Codes (R45) -/

theorem anchorCondOf_eq_none : ∀ {n : Nat}, anchorCondOf n = none ↔ 2 < n
  | 0 | 1 | 2 => by decide
  | n + 3 => iff_of_true rfl (Nat.lt_add_left n (by decide))

theorem AnchorCond.code_of {n : Nat} {a : AnchorCond} (h : anchorCondOf n = some a) : a.code = n := by
  unfold anchorCondOf at h
  split at h <;> cases h <;> rfl

theorem outcomeOf_eq_none : ∀ {n : Nat}, outcomeOf n = none ↔ 7 < n
  | 0 | 1 | 2 | 3 | 4 | 5 | 6 | 7 => by decide
  | n + 8 => iff_of_true rfl (Nat.lt_add_left n (by decide))

theorem outcomeCode_of {n : Nat} {o : Option Cls} (h : outcomeOf n = some o) : outcomeCode o = n := by
  unfold outcomeOf clsOf at h
  split at h
  · cases h; rfl
  · split at h <;> cases h <;> rfl

/-! ### The checks (R48, R49) -/

section
variable {bs : List Byte} {i : RuleIx}

/-- The entry that a RULE write with `valid` set carries (R45). -/
def ruleOf (bs : List Byte) : RuleEntry :=
  { valid := true, positions := BitVec.ofNat 16 (u16 bs 1), bands := BitVec.ofNat 4 (u8 bs 3), fpMin := u8 bs 4
    fpMax := u8 bs 5, buckles := BitVec.ofNat 3 (u8 bs 6), condA := (anchorCondOf (u8 bs 7)).getD .any
    condB := (anchorCondOf (u8 bs 8)).getD .any, tags := BitVec.ofNat 4 (u8 bs 9)
    pred := if u8 bs 10 = 0xFF then none else some (Fin.ofNat 24 (u8 bs 10))
    outcome := (outcomeOf (u8 bs 11)).getD none, window := within 1 15 (u8 bs 12) }

/-- A field of a RULE entry that is refused out of range lies out of it (R48, stage 1). -/
abbrev ruleOutOfRange (bs : List Byte) : Prop :=
  u8 bs 3 % 16 = 0 ∨ 8 < u8 bs 4 ∨ 8 < u8 bs 5 ∨ 2 < u8 bs 7 ∨ 2 < u8 bs 8 ∨ 7 < u8 bs 11

theorem bands_eq_zero (n : Nat) : BitVec.ofNat 4 n = 0 ↔ n % 16 = 0 := by
  rw [← BitVec.toNat_inj, BitVec.toNat_ofNat]
  rfl

theorem parseRule_invalid (h : u8 bs 0 = 0) : parseRule i bs = .ok RuleEntry.invalid :=
  if_pos (by rw [flagAt_eq, h]; rfl)

/-- The stages of R48 in their order, for an entry with `valid` set. -/
theorem parseRule_valid (h : u8 bs 0 ≠ 0) :
    parseRule i bs =
      if ruleOutOfRange bs then .error .range
      else if u8 bs 5 < u8 bs 4 then .error .order
      else if u8 bs 10 ≠ 0xFF ∧ i.val ≤ u8 bs 10 then .error .chain
      else .ok (ruleOf bs) := by
  unfold parseRule
  rw [if_neg (by rw [flagAt_eq, decide_eq_true h]; decide)]
  have hbad {x : Except Status RuleEntry} (hout : 2 < u8 bs 7 ∨ 2 < u8 bs 8 ∨ 7 < u8 bs 11) :
      .error .range = if ruleOutOfRange bs then .error .range else x :=
    (if_pos (.inr (.inr (.inr hout)))).symm
  cases ha : anchorCondOf (u8 bs 7) with
  | none => exact hbad (.inl (anchorCondOf_eq_none.mp ha))
  | some a =>
  cases hb : anchorCondOf (u8 bs 8) with
  | none => exact hbad (.inr (.inl (anchorCondOf_eq_none.mp hb)))
  | some b =>
  cases ho : outcomeOf (u8 bs 11) with
  | none => exact hbad (.inr (.inr (outcomeOf_eq_none.mp ho)))
  | some o =>
    have ha2 : ¬2 < u8 bs 7 := by rw [← anchorCondOf_eq_none, ha]; nofun
    have hb2 : ¬2 < u8 bs 8 := by rw [← anchorCondOf_eq_none, hb]; nofun
    have ho7 : ¬7 < u8 bs 11 := by rw [← outcomeOf_eq_none, ho]; nofun
    have hrange : ruleOutOfRange bs ↔ BitVec.ofNat 4 (u8 bs 3) = 0 ∨ 8 < u8 bs 4 ∨ 8 < u8 bs 5 := by
      simp only [ruleOutOfRange, bands_eq_zero, ha2, hb2, ho7, or_false]
    have he : ruleOf bs = { ruleOf bs with condA := a, condB := b, outcome := o } := by
      simp only [ruleOf, ha, hb, ho, Option.getD_some]
    rw [he]
    simp only [hrange]
    rfl

/-- The fields of an entry in range read back as written (R45, R194). -/
theorem ruleOf_codes (h : ¬ruleOutOfRange bs) :
    (ruleOf bs).condA.code = u8 bs 7 ∧ (ruleOf bs).condB.code = u8 bs 8 ∧ outcomeCode (ruleOf bs).outcome = u8 bs 11 := by
  simp only [ruleOutOfRange, not_or] at h
  obtain ⟨-, -, -, ha, hb, ho⟩ := h
  obtain ⟨a, ha⟩ := Option.ne_none_iff_exists'.mp (mt anchorCondOf_eq_none.mp ha)
  obtain ⟨b, hb⟩ := Option.ne_none_iff_exists'.mp (mt anchorCondOf_eq_none.mp hb)
  obtain ⟨o, ho⟩ := Option.ne_none_iff_exists'.mp (mt outcomeOf_eq_none.mp ho)
  simp only [ruleOf, ha, hb, ho, Option.getD_some]
  exact ⟨AnchorCond.code_of ha, AnchorCond.code_of hb, outcomeCode_of ho⟩

/-- A predecessor below the written index reads back as written, and NONE as 0xFF (R45). -/
theorem ruleOf_pred (h : u8 bs 10 = 0xFF ∨ u8 bs 10 < i.val) :
    ((ruleOf bs).pred.map (·.val)).getD 0xFF = u8 bs 10 := by
  unfold ruleOf
  dsimp only
  by_cases hnone : u8 bs 10 = 0xFF
  · rw [if_pos hnone, hnone]
    rfl
  · rw [if_neg hnone]
    exact Nat.mod_eq_of_lt ((h.resolve_left hnone).trans i.isLt)

end

/-! ### Chains (R49) -/

section
variable {t : Rules} {i : RuleIx} {e : RuleEntry}

theorem chainTooLong_invalid (h : e.valid = false) : chainTooLong t i e = false := by
  unfold chainTooLong
  rw [h, Bool.false_and]

theorem chainTooLong_iff (h : e.valid = true) :
    chainTooLong t i e = true ↔ ∃ j : RuleIx, (put t i e)[j].valid = true ∧ i ∈ chainOf (put t i e) 24 j ∧
      4 < (chainOf (put t i e) 24 j).length := by
  simp [chainTooLong, h, and_assoc]

end

/-! ### The write (R48, R50) -/

section
variable {s : State} {bs : List Byte} {i : RuleIx} {e : RuleEntry} {n : Nat}

/-- An entry stored in the RULE table, its rule removed from every armed map (R50). -/
def State.ruleStored (s : State) (i : RuleIx) (e : RuleEntry) : State :=
  { s with rules := put s.rules i e, positions := Vector.ofFn fun p => s.positions[p].disarm i }

theorem ownRule_error {st : Status} (hn : Fin.ofNat 24 n = i) (hp : parseRule i bs = .error st) :
    ownRule n bs s = .error st := by
  subst hn
  unfold ownRule
  dsimp only
  rw [hp]

theorem ownRule_chain (hn : Fin.ofNat 24 n = i) (hp : parseRule i bs = .ok e) (hc : chainTooLong s.rules i e = true) :
    ownRule n bs s = .error .chain := by
  subst hn
  unfold ownRule
  dsimp only
  rw [hp]
  exact if_pos hc

theorem ownRule_ok (hn : Fin.ofNat 24 n = i) (hp : parseRule i bs = .ok e) (hc : chainTooLong s.rules i e = false) :
    ownRule n bs s = .ok (s.ruleStored i e) := by
  subst hn
  unfold ownRule
  dsimp only
  rw [hp]
  exact if_neg (by rw [hc]; decide)

/-- A RULE write that its owner refuses answers and changes nothing else (R194). -/
theorem execTblwrRule_refused {tag : Byte} {st : Status} (ht : s.takes) (hprot : s.cfs.protects .rule = false)
    (hl : bs.length = 13) (ho : ownRule (byte i.val).toNat bs s.rxHunt = .error st) :
    exec (.tblwrRule tag (byte i.val) bs) s = .next (s.answered tag 0x02 st [4, byte i.val]) := by
  have hcount : (byte i.val).toNat < TableId.rule.count := by rw [byte_index_toNat]; exact i.isLt
  exact congrArg Host.Outcome.next (ht.own.trans (State.writeTable_error (s := s.rxHunt) hcount hl hprot ho))

theorem execTblwrRule_stored {tag : Byte} (ht : s.takes) (hprot : s.cfs.protects .rule = false)
    (hl : bs.length = 13) (ho : ownRule (byte i.val).toNat bs s.rxHunt = .ok (s.rxHunt.ruleStored i e)) :
    exec (.tblwrRule tag (byte i.val) bs) s = .next
      ((s.ruleStored i e).answered tag 0x02 .ok (4 :: byte i.val :: e.bytes)) := by
  have hcount : (byte i.val).toNat < TableId.rule.count := by rw [byte_index_toNat]; exact i.isLt
  have hn : Fin.ofNat 24 (byte i.val).toNat = i := by rw [byte_index_toNat, ofNat_fin]
  have hb : (s.rxHunt.ruleStored i e).entryBytes .rule (byte i.val).toNat = e.bytes := by
    show (put s.rules i e)[Fin.ofNat 24 (byte i.val).toNat].bytes = _
    simp only [hn]
    exact congrArg RuleEntry.bytes (put_get_self ..)
  have hstored := State.takeWrite_stored (tag := tag) ht hprot hcount hl ho
  rw [hb] at hstored
  exact congrArg Host.Outcome.next hstored

end

/-- Settles O16: the stages of the parse in their order, then the chain check of the whole table. -/
theorem ruleWrite : Obligations.RuleWrite := by
  intro s tag i bs ht _ hprot hl cmd outOfRange stored tooLong
  have hn : Fin.ofNat 24 (byte i.val).toNat = i := by rw [byte_index_toNat, ofNat_fin]
  have hrefuse : ∀ {st : Status}, parseRule i bs = .error st →
      exec cmd s = .next (s.answered tag 0x02 st [4, byte i.val]) := fun hp =>
    execTblwrRule_refused ht hprot hl (ownRule_error hn hp)
  have hstore : ∀ {e : RuleEntry}, parseRule i bs = .ok e → chainTooLong s.rules i e = false →
      exec cmd s = .next (stored e) := fun hp hc =>
    execTblwrRule_stored ht hprot hl (ownRule_ok (s := s.rxHunt) hn hp hc)
  refine ⟨fun hv => hstore (parseRule_invalid hv) (chainTooLong_invalid rfl), fun hv hout => hrefuse ?_,
    fun hv hout hord => hrefuse ?_, fun hv hout hord hpred hge => hrefuse ?_, fun hv hout hord hpred => ?_⟩
  · rw [parseRule_valid hv]
    exact if_pos hout
  · rw [parseRule_valid hv]
    exact (if_neg hout).trans (if_pos hord)
  · rw [parseRule_valid hv]
    exact (if_neg hout).trans ((if_neg (Nat.not_lt.mpr hord)).trans (if_pos ⟨hpred, hge⟩))
  · have hparse : parseRule i bs = .ok (ruleOf bs) := by
      rw [parseRule_valid hv]
      exact (if_neg hout).trans ((if_neg (Nat.not_lt.mpr hord)).trans
        (if_neg fun ⟨hne, hge⟩ => hpred.elim hne (Nat.not_lt.mpr hge)))
    obtain ⟨hcondA, hcondB, houtcome⟩ := ruleOf_codes hout
    refine ⟨ruleOf bs, rfl, rfl, rfl, rfl, rfl, rfl, hcondA, hcondB, rfl, ruleOf_pred hpred, houtcome, rfl,
      fun hlong => ?_, fun hshort => ?_⟩
    · exact execTblwrRule_refused ht hprot hl
        (ownRule_chain (s := s.rxHunt) hn hparse ((chainTooLong_iff rfl).mpr hlong))
    · exact hstore hparse (Bool.eq_false_iff.mpr (mt (chainTooLong_iff rfl).mp hshort))

end Sys2Proof.Machine
end

section
/-! SUPPORT. The power manager's events: the end of the load, the ignition, the run-down and the timers of the park
watch. -/

namespace Sys2Proof.Machine

/-! ### The end of the load (R171) -/

/-- Settles O5: the blocks start over the power manager with the sampled levels. -/
theorem loadCompleteEntersRun : Obligations.LoadCompleteEntersRun := by
  intro s ign door hp hr
  exact congrArg Host.Outcome.next ((if_pos hp).trans (State.startBlocks_eq _ hr rfl))

/-! ### The run-down expiry (R172 to R174) -/

section
variable {s : State}

/-- The watch set holds the positions that R174 names. -/
theorem State.mem_watchCandidates (p : Pos) :
    p ∈ s.watchCandidates ↔ (s.positions[p].presence = .live ∨ s.positions[p].presence = .held) ∧
      (s.positions[p].cls = .childSeatOccupied ∨ s.positions[p].cls = .smallOccupant) ∧
        s.poscfg[p].watchEligible = true := by
  simp [State.watchCandidates, joinsWatch, and_assoc]

theorem State.watchCandidates_sorted : s.watchCandidates.Pairwise (· < ·) :=
  (List.pairwise_lt_finRange 16).filter _

theorem State.formWatch_empty (h : s.watchCandidates = []) : s.formWatch = s.asleep := by
  rw [← State.enterSleep_eq]
  unfold State.formWatch
  rw [h]

theorem State.formWatch_filled (h : s.watchCandidates ≠ []) : s.formWatch = s.enterWatch s.watchCandidates := by
  unfold State.formWatch
  split
  · exact absurd ‹_› h
  · rfl

end

/-- Settles O8: the candidates of the watch, and the two entries by whether there is one. -/
theorem rundownExpiry : Obligations.RundownExpiry := by
  intro s hp hr
  have hexec : exec .rundownExpiry s =
      .next (s.modPmg fun m => { m with runDown := none, sleepReq := false }).formWatch :=
    congrArg Host.Outcome.next (if_pos ⟨hp, hr⟩)
  refine ⟨s.watchCandidates, State.watchCandidates_sorted, State.mem_watchCandidates, fun hw => ?_, fun hw => ?_⟩
  · rw [hexec, State.formWatch_empty (by exact hw)]
    rfl
  · rw [hexec, State.formWatch_filled (by exact hw)]
    rfl

/-! ### Every reminder evaluated in RUN (R137, R149, R150) -/

/-- `t` is `v` at the end of a step in RUN in which RME evaluated every position. -/
structure State.Evaluated (v t : State) : Prop where
  frame : t = { v with
    positions := t.positions, pnd := { v.pnd with image := t.pnd.image }, chd := t.chd, free := t.free }
  record : ∀ p : Pos, t.positions[p] = v.positions[p].reminded (evaluate (v.remInputs p) v.positions[p].rem).1
  glyphs : v.glyphsFollow t
  alert : t.chd.alert = v.chd.alert
  test : t.chd.test = v.chd.test
  requests : ∀ p : Pos, v.chd.requests[p].isSome = v.positions[p].rem.sounding →
    t.chd.requests[p].isSome = (evaluate (v.remInputs p) v.positions[p].rem).1.sounding

/-- The request that the calls of one handling leave stands exactly in an ON phase, when it did before (R149). -/
theorem callsStand.request {r : Reminder} {out : Reminder × List ChimeCall} (h : callsStand r out) (p : Pos)
    {old : Option Tone} (ho : old.isSome = r.sounding) :
    (((out.2.map (ChimeCall.event p)).getLast?.map ChimeEvent.leaves).getD old).isSome = out.1.sounding := by
  rw [← h, List.getLast?_map]
  cases out.2.getLast? with
  | none => exact ho
  | some c => cases c <;> rfl

theorem State.evalAll_settle {v : State} (hc : v.toChime = []) (hp : v.pmg.power = .run) :
    v.Evaluated v.evalAll.settle := by
  obtain ⟨haround, hpmg, hview⟩ := v.evalAll_spec
  have hglyphs := v.evalAll_glyphsFollow
  generalize v.evalAll = u at haround hpmg hview hglyphs ⊢
  have hrun : v.pmg.power = .parkWatch → v.pmg.watchSet ≠ [] := fun e => absurd (hp.symm.trans e) (by decide)
  have hawake : u.pmg.power = .parkWatch → u.pmg.watchSet ≠ [] := by rwa [hpmg]
  have hframe := State.settle_of_around haround hpmg hc hrun
  obtain ⟨hpos, hpnd⟩ := State.settle_positions hawake
  have hchd : u.chd = v.chd := (congrArg State.chd haround :)
  obtain ⟨-, -, halert, htest, -, -⟩ := deliver_spec u
  rw [← State.settle_eq_deliver hawake, hchd] at halert htest
  have hrequests := State.settle_requests hawake
  rw [← hpos, ← hpnd] at hframe
  generalize u.settle = t at *
  refine ⟨hframe, fun p => ?_, fun p => ?_, halert, htest, fun p ho => ?_⟩
  · rw [hpos]
    exact congrArg PosView.record (hview p)
  · rw [hpos, hpnd]
    exact hglyphs p
  · have hevents : (u.view p).events =
        (evaluate (v.remInputs p) v.positions[p].rem).2.map (ChimeCall.event p) := by
      rw [hview p]
      show v.toChime.filter _ ++ _ = _
      rw [hc]
      rfl
    rw [hrequests, hevents, hchd]
    exact (evaluate_stands (v.remInputs p) v.positions[p].rem).request p ho

/-- With the ignition off every glyph is DARK at the end of the step, where each followed its reminder before it. -/
theorem State.Evaluated.dark {v t : State} (h : v.Evaluated t) (hi : v.pmg.ignition = false) (hw : v.panelWhole)
    (p : Pos) : t.pnd.image[p] = .dark := by
  have hoff : t.positions[p].rem.state = .off := by
    rw [h.record]
    exact evaluate_off hi _
  rw [h.glyphs p, hoff, hw p]
  split
  · rename_i hs
    rw [← hs]
    rfl
  · rfl

/-! ### The ignition (R169, R172, R182, R184) -/

/-- With the ignition off an evaluation keeps a reminder that is OFF and resets every other one (R138). -/
theorem evaluate_ignition_off {i : RemInputs} (h : i.ignition = false) (r : Reminder) :
    (evaluate i r).1 = if r.state = .off then r else Reminder.reset := by
  have hd : decided i = some .off := by simp [decided, h]
  unfold evaluate
  rw [hd]
  by_cases hr : r.state = .off
  · rw [if_pos hr]
    exact congrArg Prod.fst (if_pos hr.symm)
  · rw [if_neg hr]
    exact congrArg Prod.fst (if_neg (Ne.symm hr))

theorem evaluate_off_silent {i : RemInputs} (h : i.ignition = false) (r : Reminder) :
    (evaluate i r).1.sounding = false := by
  unfold Reminder.sounding
  rw [evaluate_off h]
  rfl

section
variable {s : State}

theorem execIgnitionChange_new {on : Bool} (h : on ≠ s.pmg.ignition) :
    exec (.ignitionChange on) s = .next (s.ignitionChange on).settle :=
  congrArg Host.Outcome.next (if_neg h)

/-- A change of ignition after which RME evaluates every position of `v` in RUN. -/
theorem execIgnitionChange_evaluates {on : Bool} {v : State} (h : on ≠ s.pmg.ignition)
    (hv : s.ignitionChange on = v.evalAll) (hc : v.toChime = []) (hp : v.pmg.power = .run) :
    ∃ t, exec (.ignitionChange on) s = .next t ∧ v.Evaluated t :=
  ⟨v.evalAll.settle, by rw [execIgnitionChange_new h, hv], State.evalAll_settle hc hp⟩

theorem State.ignitionChange_off_run (hp : s.pmg.power = .run) : s.ignitionChange false = s.ignitionOffInRun := by
  unfold State.ignitionChange
  rw [hp]

theorem State.ignitionChange_on_run (hp : s.pmg.power = .run) : s.ignitionChange true = s.ignitionOnInRun := by
  unfold State.ignitionChange
  rw [hp]

theorem State.ignitionChange_on_parkWatch (hp : s.pmg.power = .parkWatch) :
    s.ignitionChange true = (s.setIgnition true).returnToRun.evalAll := by
  unfold State.ignitionChange
  rw [hp]

theorem State.ignitionChange_on_sleep (hp : s.pmg.power = .sleep) :
    s.ignitionChange true = ((s.setIgnition true).wake fun c => { c with ign := true }).evalAll := by
  unfold State.ignitionChange
  rw [hp]

theorem State.ignitionChange_starting (on : Bool) (hp : s.pmg.power = .starting) : s.ignitionChange on = s := by
  unfold State.ignitionChange
  rw [hp]

theorem Chd.withdrawAlert_alert (c : Chd) : c.withdrawAlert.alert = none := by
  unfold Chd.withdrawAlert
  split
  · rfl
  · exact Option.not_isSome_iff_eq_none.mp ‹_›

theorem Chd.withdrawAlert_test (c : Chd) : c.withdrawAlert.test = c.test := by
  unfold Chd.withdrawAlert
  split <;> rfl

/-- In RUN a scan starts at once or waits for the one in progress (R69, R79). -/
theorem State.requestScan_run (hp : s.pmg.power = .run) :
    s.requestScan =
      s.withLsu (if s.lsu.remaining = [] then s.lsu.scanning else { s.lsu with followUp := true }) := by
  unfold State.requestScan
  split
  · unfold State.startScan
    rw [hp]
    rfl
  · rfl

/-- The return to RUN from PARK_WATCH in the terms of the claims (R182). -/
theorem State.returnToRun_eq (hn : s.pnd.scanning = true) :
    s.returnToRun = { s with
      sga := s.sga.resumeRun, sgb := s.sgb.resumeRun, tick := some (tickPeriod s.pmg.timing.tick)
      chd := s.chd.withdrawAlert, pnd := { s.pnd with flash := .a }
      pmg := { s.pmg.unwatched with power := .run, runDown := none }
      lsu := if s.lsu.remaining = [] then s.lsu.scanning else { s.lsu with followUp := true } } := by
  unfold State.returnToRun Pnd.enterRun
  rw [if_pos hn]
  exact State.requestScan_run rfl

end

/-- Settles O6: the state over which RME evaluates every position, power state by power state. -/
theorem ignitionChanges : Obligations.IgnitionChanges := by
  refine ⟨fun s hp hi hw hc hreq => ?_, fun s hi hc => ?_, fun s on hc h => ?_⟩
  · have hnew : false ≠ s.pmg.ignition := by rw [hi]; decide
    obtain ⟨t, hexec, ht⟩ := execIgnitionChange_evaluates hnew (State.ignitionChange_off_run hp) hc hp
    have hpmg := congrArg State.pmg ht.frame
    have hpnd := congrArg State.pnd ht.frame
    refine ⟨t, hexec, by rw [hpmg, hpnd]; exact ht.frame, hpmg, fun p => ?_, hpnd, fun p => ⟨ht.dark rfl hw p, ?_⟩,
      ht.alert, ht.test⟩
    · rw [ht.record p, evaluate_ignition_off rfl]
      rfl
    · have hsilent := ht.requests p (hreq p)
      rw [evaluate_off_silent rfl] at hsilent
      exact Option.isNone_iff_eq_none.mp (Option.isSome_eq_false_iff.mp hsilent)
  · have hnew : true ≠ s.pmg.ignition := by rw [hi]; decide
    refine ⟨fun hp => ?_, fun hp hn => ?_, fun hp hr => ?_⟩
    · obtain ⟨t, hexec, ht⟩ := execIgnitionChange_evaluates hnew (State.ignitionChange_on_run hp) hc hp
      exact ⟨t, hexec, ht.glyphs, ht.frame, ht.record⟩
    · have hv := State.ignitionChange_on_parkWatch hp
      rw [State.returnToRun_eq (s := s.setIgnition true) hn] at hv
      obtain ⟨t, hexec, ht⟩ := execIgnitionChange_evaluates hnew hv hc rfl
      exact ⟨t, hexec, ht.glyphs, ht.frame, ht.alert.trans (Chd.withdrawAlert_alert _),
        ht.test.trans (Chd.withdrawAlert_test _), ht.record⟩
    · have hv := State.ignitionChange_on_sleep hp
      rw [State.wake_eq (s.setIgnition true) _ hr] at hv
      obtain ⟨t, hexec, ht⟩ := execIgnitionChange_evaluates hnew hv hc rfl
      exact ⟨t, _, hexec, ht.glyphs, rfl, ht.frame, ht.record⟩
  · by_cases hon : on = s.pmg.ignition
    · exact congrArg Host.Outcome.next (if_pos hon)
    · have hp := h.resolve_right hon
      rw [execIgnitionChange_new hon, State.ignitionChange_starting on hp,
        State.settle_of_settled ⟨hc, fun e => absurd (hp.symm.trans e) (by decide)⟩]

/-! ### The timers of the park watch (R175, R177, R178, R181) -/

theorem Pmg.watchesFront_iff (m : Pmg) : m.watchesFront = true ↔ ¬(0 ∉ m.watchSet ∧ 1 ∉ m.watchSet) := by
  unfold Pmg.watchesFront
  simp only [Bool.or_eq_true, decide_eq_true_eq]
  tauto

section
variable {s : State}

/-- In PARK_WATCH with a watched front seat a scan of the watched ones starts at once or waits (R79). -/
theorem State.requestScan_watch (hp : s.pmg.power = .parkWatch) (hw : s.pmg.watchesFront = true) :
    s.requestScan = s.withLsu
      (if s.lsu.remaining ≠ [] then { s.lsu with followUp := true }
        else s.lsu.startScan (0 ∈ s.pmg.watchSet) (1 ∈ s.pmg.watchSet) none) := by
  unfold State.requestScan
  by_cases hr : s.lsu.remaining = []
  · rw [if_pos hr, if_neg (not_not_intro hr)]
    unfold State.startScan
    rw [hp]
    exact if_pos hw
  · rw [if_neg hr, if_pos hr]
    rfl

/-- The watch interval starts the passes, and the scan where a front seat is watched (R175). -/
theorem State.watchInterval_eq (hp : s.pmg.power = .parkWatch) :
    s.watchInterval = { s with
      sga := s.sga.startPass, sgb := s.sgb.startPass
      pmg := { s.pmg with interval := some s.pmg.timing.watchInterval }
      lsu := if 0 ∉ s.pmg.watchSet ∧ 1 ∉ s.pmg.watchSet then s.lsu
        else if s.lsu.remaining ≠ [] then { s.lsu with followUp := true }
        else s.lsu.startScan (0 ∈ s.pmg.watchSet) (1 ∈ s.pmg.watchSet) none } := by
  unfold State.watchInterval
  by_cases hw : 0 ∉ s.pmg.watchSet ∧ 1 ∉ s.pmg.watchSet
  · rw [if_pos hw]
    exact if_neg fun e => (Pmg.watchesFront_iff _).mp e hw
  · have hfront := (Pmg.watchesFront_iff _).mpr hw
    rw [if_neg hw]
    exact (if_pos hfront).trans (State.requestScan_watch hp hfront)

/-- A dwell tick that counts (R177). -/
theorem execDwellTick_counts (hp : s.pmg.power = .parkWatch) (ht : s.pmg.dwellTimer = true)
    (hs : s.pmg.sub = some .watching) :
    exec .dwellTick s =
      let counted := s.modPmg fun m => { m with dwell := m.dwell + 1 }
      .next (if s.pmg.timing.dwell ≤ s.pmg.dwell + 1 then counted.enterAlerting else counted) :=
  congrArg Host.Outcome.next (if_pos ⟨hp, ht, hs⟩)

/-- An elapsed tick: the count, and at the watch max the entry to SLEEP (R181, R183). -/
theorem execWatchElapsedTick_counts (hp : s.pmg.power = .parkWatch) (ht : s.pmg.elapsedTimer = true) :
    exec .watchElapsedTick s =
      let counted := s.modPmg fun m => { m with elapsed := m.elapsed + 1 }
      .next (if s.pmg.timing.watchMax ≤ s.pmg.elapsed + 1 then
        (counted.modPmg fun m => { m with causes := { m.causes with watchExpired := true } }).asleep
      else counted) := by
  dsimp only
  rw [← State.enterSleep_eq]
  exact congrArg Host.Outcome.next (if_pos ⟨hp, ht⟩)

end

/-- Settles O51, timer by timer. -/
theorem watchTimers : Obligations.WatchTimers := by
  intro s hp m passes alerted
  refine ⟨fun hi => ?_, fun ht hs => ⟨fun hlt => ?_, fun hle => ?_⟩, fun h => ?_, fun hs hr => ?_,
    fun ht => ⟨fun hlt => ?_, fun hle => ?_⟩⟩
  · exact congrArg Host.Outcome.next ((if_pos ⟨hp, hi⟩).trans (State.watchInterval_eq hp))
  · rw [execDwellTick_counts hp ht hs]
    exact congrArg Host.Outcome.next (if_neg (Nat.not_le.mpr hlt))
  · rw [execDwellTick_counts hp ht hs]
    exact congrArg Host.Outcome.next (if_pos hle)
  · refine congrArg Host.Outcome.next (if_neg fun ⟨_, ht, hs⟩ => ?_)
    exact h.elim (fun hf => absurd (ht.symm.trans hf) (by decide)) fun hn => hn hs
  · exact congrArg Host.Outcome.next (if_pos ⟨hp, hs, hr⟩)
  · rw [execWatchElapsedTick_counts hp ht]
    exact congrArg Host.Outcome.next (if_neg (Nat.not_le.mpr hlt))
  · rw [execWatchElapsedTick_counts hp ht]
    exact congrArg Host.Outcome.next (if_pos hle)

end Sys2Proof.Machine
end

section
/-! SUPPORT. The laws of the FIFOs, of the records and of the poll: the part of the state they speak of, and what UTR
can change in it. -/

namespace Sys2Proof.Machine

/-! ### A segment's laws -/

/-- What UTR makes of a segment: QUEUED records are answered and nothing else changes (R102). -/
structure Segment.Answered (x y : Segment) : Prop where
  rest : y = { x with records := y.records }
  records : List.Forall₂ (fun q q' : PassRecord =>
    q' = q ∨ q.state = .queued ∧ ∃ st body n, q' = { q with state := .answered st body n }) x.records y.records

theorem Segment.Answered.refl {x : Segment} : x.Answered x :=
  ⟨rfl, List.forall₂_same.mpr fun _ _ => .inl rfl⟩

theorem Segment.Answered.trans {x y z : Segment} (h : x.Answered y) (h' : y.Answered z) : x.Answered z := by
  refine ⟨?_, forall₂_chain (fun q q1 q2 h1 h2 => ?_) h.records h'.records⟩
  · rw [h'.rest, h.rest]
  · rcases h1 with rfl | ⟨hq, st, body, n, rfl⟩
    · exact h2
    · rcases h2 with rfl | ⟨h2, -⟩
      · exact .inr ⟨hq, st, body, n, rfl⟩
      · cases h2

/-- Answering picked records of which all are QUEUED. -/
theorem Segment.answer_answered {x : Segment} {pick : PassRecord → Bool} (st : AnswerStatus) (body : List Byte)
    (h : ∀ q, pick q = true → q.state = .queued) : x.Answered (x.answer pick st body) := by
  refine ⟨rfl, (answerAll_forall pick st body _ x.records).imp fun q q' hq => ?_⟩
  split at hq
  · obtain ⟨n, rfl⟩ := hq
    exact .inr ⟨h q ‹_›, st, body, n, rfl⟩
  · exact .inl hq

theorem Segment.dropSlot_answered (x : Segment) (i : Slot) : x.Answered (x.dropSlot i) :=
  Segment.answer_answered _ _ fun _ h => of_decide_eq_true (Bool.and_eq_true_iff.mp h).1

theorem Segment.answerQueued_answered (x : Segment) (st : AnswerStatus) : x.Answered (x.answerQueued st) :=
  Segment.answer_answered _ _ fun q h => by simpa using h

theorem Segment.checkWalk_answered (x : Segment) : x.Answered x.checkWalk :=
  Segment.answer_answered _ _ fun _ h => of_decide_eq_true (Bool.and_eq_true_iff.mp h).1

/-- An event that keeps the laws of a segment: its record places, the law of SENT records, the law of the poll, and that
no poll starts (R82, R99). -/
structure Segment.Keeps (x y : Segment) : Prop where
  places : x.records.length ≤ 3 → y.records.length ≤ 3
  sent : x.sentWhole → y.sentWhole
  poll : x.pollWhole → y.pollWhole
  none : x.poll = .none → y.poll = .none

theorem Segment.Keeps.refl {x : Segment} : x.Keeps x := ⟨id, id, id, id⟩

theorem Segment.Keeps.trans {x y z : Segment} (h : x.Keeps y) (h' : y.Keeps z) : x.Keeps z :=
  ⟨h'.places ∘ h.places, h'.sent ∘ h.sent, h'.poll ∘ h.poll, h'.none ∘ h.none⟩

/-- A change that leaves records and poll alone keeps the laws, where it keeps that a polling segment is RUNNING. -/
theorem Segment.Keeps.of_same {x y : Segment} (hr : y.records = x.records) (hp : y.poll = x.poll)
    (hs : y.sending = x.sending) (hw : y.window = x.window) (h : x.state = .running → y.state = .running) : x.Keeps y := by
  refine ⟨by rw [hr]; exact id, ?_, ?_, by rw [hp]; exact id⟩
  · unfold Segment.sentWhole
    rw [hr, hp]
    exact id
  · rintro ⟨h1, h2, h3⟩
    refine ⟨fun e => h (h1 (hp ▸ e)), ?_, ?_⟩
    · rw [hs, hw, hp]; exact h2
    · rw [hs, hw]; exact h3

theorem countP_sent_answered {rs rs' : List PassRecord} (h : List.Forall₂ (fun q q' : PassRecord =>
    q' = q ∨ q.state = .queued ∧ ∃ st body n, q' = { q with state := .answered st body n }) rs rs') :
    rs'.countP (fun r => r.state = .sent) = rs.countP (fun r => r.state = .sent) ∧
      ∀ q ∈ rs', q.state = .sent → q ∈ rs := by
  induction h with
  | nil => exact ⟨rfl, fun _ h => by cases h⟩
  | cons h1 _ ih =>
    obtain ⟨ih1, ih2⟩ := ih
    rcases h1 with rfl | ⟨hq, st, body, n, rfl⟩
    · refine ⟨by simp only [List.countP_cons, ih1], fun q hq hs => ?_⟩
      rcases List.mem_cons.mp hq with rfl | hq
      · exact List.mem_cons_self ..
      · exact List.mem_cons_of_mem _ (ih2 q hq hs)
    · refine ⟨by simp [ih1, hq], fun q hq hs => ?_⟩
      rcases List.mem_cons.mp hq with rfl | hq
      · cases hs
      · exact List.mem_cons_of_mem _ (ih2 q hq hs)

/-- Answering QUEUED records keeps every law of the segment. -/
theorem Segment.Answered.keeps {x y : Segment} (h : x.Answered y) : x.Keeps y := by
  have hr := h.rest
  have hlen := h.records.length_eq
  obtain ⟨hcount, hmem⟩ := countP_sent_answered h.records
  generalize y.records = rs at hr hlen hcount hmem
  subst hr
  exact ⟨fun h => hlen ▸ h, fun ⟨h1, h2⟩ => ⟨hcount.trans_le h1, fun q hq hs => h2 q (hmem q hq hs) hs⟩, id, id⟩

/-- With no record SENT the law of SENT records holds whatever the poll. -/
theorem Segment.sentWhole_of_unsent {x : Segment} (h : ∀ q ∈ x.records, q.state ≠ .sent) : x.sentWhole := by
  refine ⟨?_, fun q hq hs => absurd hs (h q hq)⟩
  rw [List.countP_eq_zero.mpr fun q hq => by simpa using h q hq]
  exact Nat.zero_le _

/-- With nothing of a poll left the law of the poll holds in every state. -/
theorem Segment.pollWhole_of_none {x : Segment} (hp : x.poll = none) (hs : x.sending = none) (hw : x.window = none) :
    x.pollWhole := by
  refine ⟨fun e => ?_, fun e => ?_, .inl hs⟩
  · rw [hp] at e; cases e
  · rw [hs, hw] at e; rcases e with e | e <;> cases e

/-- The end of a poll answers the SENT record and leaves no poll (R92, R101). -/
theorem Segment.answerSent_endPoll_keeps (x : Segment) (st : AnswerStatus) (body : List Byte) :
    x.Keeps (x.answerSent st body).endPoll := by
  refine ⟨fun h => ?_, fun _ => Segment.sentWhole_of_unsent fun q hq => ?_,
    fun _ => Segment.pollWhole_of_none rfl rfl rfl, fun _ => rfl⟩
  · exact (answerAll_length ..).trans_le h
  · rcases mem_answerAll hq with ⟨k, e⟩ | ⟨-, e⟩
    · rw [e]; exact fun h => by cases h
    · simpa using e

/-- A segment whose work is abandoned meets every law (R105). -/
theorem Segment.abandon_keeps (x : Segment) : x.Keeps x.abandon :=
  ⟨fun _ => Nat.zero_le _, fun _ => Segment.sentWhole_of_unsent (fun _ h => by cases h),
    fun _ => Segment.pollWhole_of_none rfl rfl rfl, fun _ => rfl⟩

/-- A segment with no poll outstanding goes to any state. -/
theorem Segment.Keeps.idle {x y : Segment} (hr : y.records = x.records) (hp : x.poll = .none) (hp' : y.poll = .none)
    (hs : y.sending = x.sending) (hw : y.window = x.window) : x.Keeps y := by
  refine ⟨by rw [hr]; exact id, ?_, fun ⟨_, h2, h3⟩ => ⟨fun e => ?_, ?_, ?_⟩, fun _ => hp'⟩
  · unfold Segment.sentWhole
    rw [hr, hp, hp']
    exact id
  · rw [hp'] at e; cases e
  · rw [hs, hw, hp', ← hp]; exact h2
  · rw [hs, hw]; exact h3

/-- Stopping, going to FAULT: with no poll outstanding every law is kept (R96, R98). -/
theorem Segment.stop_keeps {x : Segment} (h : x.poll = .none) : x.Keeps x.stop :=
  (x.answerQueued_answered .segmentOff).keeps.trans (.idle rfl h h rfl rfl)

theorem Segment.enterFault_keeps {x : Segment} (h : x.poll = .none) : x.Keeps x.enterFault :=
  (x.answerQueued_answered .segmentFault).keeps.trans (.idle rfl h h rfl rfl)

/-! ### A poll start (R88, R100) -/

theorem attach_length (slot : Slot) (rs : List PassRecord) : (attach slot rs).length = rs.length := by
  induction rs with
  | nil => rfl
  | cons r rs ih => unfold attach; split <;> simp [ih]

/-- Where no record is SENT, attaching makes at most one so, a record of the polled slot (R100). -/
theorem attach_sent {slot : Slot} {rs : List PassRecord} (h : ∀ q ∈ rs, q.state ≠ .sent) :
    (attach slot rs).countP (fun r => r.state = .sent) ≤ 1 ∧ ∀ q ∈ attach slot rs, q.state = .sent → q.slot = slot := by
  induction rs with
  | nil => exact ⟨Nat.zero_le _, fun _ h => by cases h⟩
  | cons r rs ih =>
    have hrs : ∀ q ∈ rs, q.state ≠ .sent := fun q hq => h q (List.mem_cons_of_mem _ hq)
    have hr : r.state ≠ .sent := h r (List.mem_cons_self ..)
    obtain ⟨ih1, ih2⟩ := ih hrs
    unfold attach
    split
    · rename_i hw
      have h0 : rs.countP (fun r => r.state = .sent) = 0 :=
        List.countP_eq_zero.mpr fun q hq => by simpa using hrs q hq
      refine ⟨by simp [h0], fun q hq hs => ?_⟩
      rcases List.mem_cons.mp hq with rfl | hq
      · exact hw.2
      · exact absurd hs (hrs q hq)
    · refine ⟨by rw [List.countP_cons_of_neg (by simpa using hr)]; exact ih1, fun q hq hs => ?_⟩
      rcases List.mem_cons.mp hq with rfl | hq
      · exact absurd hs hr
      · exact ih2 q hq hs

/-- What a poll start keeps: all but that no poll starts (R82, R88, R99, R100). -/
structure Segment.Starts (x y : Segment) : Prop where
  places : x.records.length ≤ 3 → y.records.length ≤ 3
  sent : x.sentWhole → y.sentWhole
  poll : x.pollWhole → y.pollWhole

theorem Segment.Keeps.starts {x y : Segment} (h : x.Keeps y) : x.Starts y := ⟨h.places, h.sent, h.poll⟩

theorem Segment.startPoll_starts {x : Segment} (e : RingIx) (hs : x.state = .running) (hp : x.poll = none) :
    x.Starts (x.startPoll e) := by
  refine ⟨fun h => (attach_length ..).trans_le h, fun ⟨_, h2⟩ => ?_, fun _ => ⟨fun _ => hs, fun _ => rfl, .inr rfl⟩⟩
  obtain ⟨h3, h4⟩ := attach_sent (slot := x.ring[e].slot) (rs := x.records) fun q hq hsent => by
    have := h2 q hq hsent
    rw [hp] at this
    cases this
  exact ⟨h3, fun q hq hsent => congrArg some (h4 q hq hsent).symm⟩

theorem Segment.ready_iff {x : Segment} : x.ready = true ↔ x.state = .running ∧ x.poll = none ∧ x.spacing = none := by
  simp [Segment.ready, and_assoc]

theorem Segment.pollInRun_starts {x : Segment} (hs : x.state = .running) (hp : x.poll = none) : x.Starts x.pollInRun := by
  unfold Segment.pollInRun
  dsimp only
  split
  · rename_i e _
    obtain ⟨h1, h2, h3⟩ := Segment.startPoll_starts (x := { x with
      pointer := (x.findPoll 12 x.walkStart).2, headMoved := false }) e hs hp
    exact ⟨h1, h2, h3⟩
  · exact Segment.Keeps.starts (Segment.Keeps.idle (by rfl) hp hp (by rfl) (by rfl))

theorem Segment.pollInPass_starts {x : Segment} (watched : Slot → Bool) (w : WatchPass) (hs : x.state = .running)
    (hp : x.poll = none) : x.Starts (x.pollInPass watched w) := by
  unfold Segment.pollInPass
  dsimp only
  split
  · rename_i e _
    obtain ⟨h1, h2, h3⟩ := Segment.startPoll_starts (x := { x with
      pointer := (passVisit x.ring (x.pollsInPass watched) 12 w.next w.visited).2.1.getD x.cfg.head }) e hs hp
    exact ⟨h1, h2, h3⟩
  · exact Segment.Keeps.starts (Segment.Keeps.idle (by rfl) hp hp (by rfl) (by rfl))

end Sys2Proof.Machine
end

section
/-! SUPPORT. UTR over the segments and the trunk port: it answers QUEUED records and offers mirror copies, nothing else. -/

namespace Sys2Proof.Machine

/-! ### UTR's moves (R102, R114 to R128) -/

/-- What UTR makes of the segments, of the trunk port and of the power state. -/
structure UtrMoves (s t : State) : Prop where
  seg : ∀ g, (s.seg g).Answered (t.seg g)
  power : t.pmg.power = s.pmg.power
  places : t.tkp.placesTaken = s.tkp.placesTaken
  mirror : s.tkp.mirror.length ≤ 8 → t.tkp.mirror.length ≤ 8

theorem UtrMoves.refl {s : State} : UtrMoves s s := ⟨fun _ => .refl, rfl, rfl, id⟩

theorem UtrMoves.trans {s t u : State} (h : UtrMoves s t) (h' : UtrMoves t u) : UtrMoves s u :=
  ⟨fun g => (h.seg g).trans (h'.seg g), h'.power.trans h.power, h'.places.trans h.places, h'.mirror ∘ h.mirror⟩

/-- What the views show does not matter to UTR's moves. -/
theorem UtrMoves.of_around {s t : State} (h : t.around = s.around) : UtrMoves s t := by
  have htkp : t.tkp = s.tkp := (congrArg State.tkp h :)
  refine ⟨fun g => ?_, State.power_of_around h, by rw [htkp], by rw [htkp]; exact id⟩
  rw [State.seg_of_around h g]
  exact .refl

theorem UtrMoves.setSlot {s : State} (i : Slot) (r : SlotRec) : UtrMoves s (s.setSlot i r) :=
  ⟨fun g => by cases g <;> exact .refl, rfl, rfl, id⟩

theorem UtrMoves.modSeg {s : State} {g : Seg} {f : Segment → Segment} (h : (s.seg g).Answered (f (s.seg g))) :
    UtrMoves s (s.modSeg g f) := by
  refine ⟨fun k => ?_, by rw [State.modSeg_pmg], by rw [State.modSeg_tkp], by rw [State.modSeg_tkp]; exact id⟩
  by_cases e : k = g
  · subst e; rw [State.modSeg_seg]; exact h
  · rw [State.modSeg_seg_ne _ _ e]; exact .refl

theorem UtrMoves.ite {s t u : State} {c : Prop} [Decidable c] (ht : UtrMoves s t) (hu : UtrMoves s u) :
    UtrMoves s (if c then t else u) := by
  split
  exacts [ht, hu]

theorem State.dropRecords_utr (s : State) (i : Slot) : UtrMoves s (s.dropRecords i) := by
  unfold State.dropRecords
  split
  · exact .modSeg (Segment.dropSlot_answered _ i)
  · exact .refl

theorem State.clearFedBy_utr (s : State) (i : Slot) : UtrMoves s (s.clearFedBy i) :=
  .of_around (s.clearFedBy_spec i).1

theorem State.loseFedBy_utr (s : State) (i : Slot) : UtrMoves s (s.loseFedBy i) :=
  .of_around (s.loseFedBy_spec i).1

theorem State.offerMirror_utr (s : State) (c : MirrorCopy) : UtrMoves s (s.offerMirror c) := by
  unfold State.offerMirror
  split
  · rename_i h
    refine ⟨fun g => ?_, rfl, rfl, fun _ => ?_⟩
    · cases g <;> exact .refl
    · exact (List.length_append ..).trans_le h
  · refine ⟨fun g => ?_, rfl, rfl, id⟩
    cases g <;> exact .refl

theorem State.dispatchBlock_utr (s : State) (slot : Slot) (ix : SeatIx) (b : Block) :
    UtrMoves s (s.dispatchBlock slot ix b) := by
  unfold State.dispatchBlock
  split
  · exact .of_around (s.takeBlock_around ..)
  · exact .setSlot ..

theorem State.dispatchFrom_utr (slot : Slot) (n k : Nat) (bs : List Block) (s : State) :
    UtrMoves s (State.dispatchFrom slot n k bs s) := by
  induction bs generalizing k s with
  | nil => exact .refl
  | cons b bs ih => exact (UtrMoves.ite (s.dispatchBlock_utr slot _ b) .refl).trans (ih _ _)

theorem State.accept_utr (s : State) (g : Seg) (r : Report) (n : NodeEntry) : UtrMoves s (s.accept g r n) := by
  unfold State.accept
  dsimp only
  generalize ({ s.slots[r.slot] with miss := 0, lastSeq := some r.seq } : SlotRec) = slot
  refine .trans (.setSlot r.slot slot) ?_
  generalize s.setSlot r.slot slot = u
  have h : UtrMoves u (if n.mirror = true then u.offerMirror (r.copy g) else u) := .ite (u.offerMirror_utr _) .refl
  refine .trans h (.trans (State.dispatchFrom_utr r.slot n.seatCount 0 r.blocks _) ?_)
  exact .ite (.setSlot ..) .refl

theorem State.detach_utr (s : State) (i : Slot) : UtrMoves s (s.detach i) :=
  (s.dropRecords_utr i).trans ((State.clearFedBy_utr _ i).trans (.setSlot ..))

theorem State.swapOut_utr (s : State) (i : Slot) : UtrMoves s (s.swapOut i) :=
  (s.dropRecords_utr i).trans ((State.clearFedBy_utr _ i).trans (.setSlot ..))

theorem State.newUnit_utr (s : State) (g : Seg) (r : Report) : UtrMoves s (s.newUnit g r) := by
  unfold State.newUnit
  dsimp only
  have h : UtrMoves s (if s.slots[r.slot].state = .empty then s else s.swapOut r.slot) :=
    .ite .refl (s.swapOut_utr r.slot)
  refine h.trans ?_
  generalize (if s.slots[r.slot].state = .empty then s else s.swapOut r.slot) = u
  split
  · exact UtrMoves.trans (.setSlot ..) (State.accept_utr _ g r _)
  · exact .setSlot ..

theorem State.hearOn_utr (s : State) (g : Seg) (i : Slot) : UtrMoves s (s.hearOn g i) := by
  unfold State.hearOn
  exact UtrMoves.trans (.ite .refl (s.dropRecords_utr i)) (.setSlot ..)

theorem State.knownUnit_utr (s : State) (g : Seg) (r : Report) : UtrMoves s (s.knownUnit g r) := by
  unfold State.knownUnit
  dsimp only
  refine (s.hearOn_utr g r.slot).trans ?_
  generalize s.hearOn g r.slot = u
  split
  · exact .ite (.setSlot ..) (u.accept_utr g r _)
  · exact UtrMoves.trans (.setSlot ..) (State.accept_utr _ g r _)
  · exact UtrMoves.trans (.setSlot ..) (State.accept_utr _ g r _)
  · exact .setSlot ..
  · exact (u.dropRecords_utr _).trans ((State.clearFedBy_utr _ _).trans (.setSlot ..))

theorem State.handleReport_utr (s : State) (g : Seg) (r : Report) : UtrMoves s (s.handleReport g r) := by
  unfold State.handleReport
  dsimp only
  split
  · exact .ite .refl (s.detach_utr _)
  · exact .ite (s.newUnit_utr g r) (s.knownUnit_utr g r)

theorem State.loseSlot_utr (s : State) (i : Slot) : UtrMoves s (s.loseSlot i) :=
  (s.dropRecords_utr i).trans ((State.loseFedBy_utr _ i).trans (.setSlot ..))

theorem State.dropSlot_utr (s : State) (i : Slot) : UtrMoves s (s.dropSlot i) :=
  (s.clearFedBy_utr i).trans (.setSlot ..)

theorem State.handleMiss_utr (s : State) (g : Seg) (i : Slot) : UtrMoves s (s.handleMiss g i) := by
  rw [State.handleMiss_eq]
  split
  · exact UtrMoves.trans (.setSlot ..) (State.dropSlot_utr _ i)
  split
  · exact UtrMoves.trans (.setSlot ..) (State.loseSlot_utr _ i)
  · exact .setSlot ..

theorem State.loseSegment_utr (s : State) (g : Seg) : UtrMoves s (s.loseSegment g) := by
  unfold State.loseSegment
  generalize List.finRange 16 = is
  induction is generalizing s with
  | nil => exact .refl
  | cons i is ih => exact (UtrMoves.ite (s.loseSlot_utr i) .refl).trans (ih _)

end Sys2Proof.Machine
end

section
/-! SUPPORT. Every command keeps the places of the FIFOs and of the records, and the laws of the segments. -/

namespace Sys2Proof.Machine

/-! ### The laws of a state -/

/-- From `s` to `t` every law of the FIFOs, the records and the polls is kept (R82, R99, R191, R203). -/
structure Keeps (s t : State) : Prop where
  capacities : s.capacities → t.capacities
  sent : s.sentWhole → t.sentWhole
  polls : s.pollsWhole → t.pollsWhole

theorem Keeps.refl {s : State} : Keeps s s := ⟨id, id, id⟩

theorem Keeps.trans {s t u : State} (h : Keeps s t) (h' : Keeps t u) : Keeps s u :=
  ⟨h'.capacities ∘ h.capacities, h'.sent ∘ h.sent, h'.polls ∘ h.polls⟩

/-- The part of the state that these laws speak of. -/
structure Links where
  places : Nat
  mirror : Nat
  sga : Segment
  sgb : Segment
  power : Power

/-- The links of a state. -/
def State.links (s : State) : Links :=
  { places := s.tkp.placesTaken, mirror := s.tkp.mirror.length, sga := s.sga, sgb := s.sgb, power := s.pmg.power }

/-- A change of both segments, of the port and of the power state that keeps the laws: no FIFO outgrows its places, each
segment keeps its own laws, and a poll starts only in RUN and PARK_WATCH. -/
theorem Keeps.of {s t : State} (hp : s.tkp.placesTaken ≤ 8 → t.tkp.placesTaken ≤ 8)
    (hm : s.tkp.mirror.length ≤ 8 → t.tkp.mirror.length ≤ 8) (hseg : ∀ g, (s.seg g).Starts (t.seg g))
    (hpoll : t.pmg.power = .starting ∨ t.pmg.power = .sleep → s.pollsWhole → ∀ g, (t.seg g).poll = none) : Keeps s t := by
  refine ⟨fun ⟨h1, h2, h3, h4⟩ => ⟨hp h1, hm h2, (hseg .a).places h3, (hseg .b).places h4⟩,
    fun ⟨h1, h2⟩ => ⟨(hseg .a).sent h1, (hseg .b).sent h2⟩, fun h g => ⟨(hseg g).poll (h g).1, fun e => hpoll e h g⟩⟩

/-- A change of the segments under an unchanged power state, each keeping its laws. -/
theorem Keeps.of_segs {s t : State} (hp : s.tkp.placesTaken ≤ 8 → t.tkp.placesTaken ≤ 8)
    (hm : s.tkp.mirror.length ≤ 8 → t.tkp.mirror.length ≤ 8) (hseg : ∀ g, (s.seg g).Keeps (t.seg g))
    (hpow : t.pmg.power = s.pmg.power ∨ t.pmg.power = .run ∨ t.pmg.power = .parkWatch) : Keeps s t := by
  refine .of hp hm (fun g => (hseg g).starts) fun e h g => (hseg g).none ((h g).2 ?_)
  rcases hpow with hpow | hpow | hpow
  · rwa [hpow] at e
  · rw [hpow] at e; rcases e with e | e <;> cases e
  · rw [hpow] at e; rcases e with e | e <;> cases e

theorem Keeps.of_links {s t : State} (h : t.links = s.links) : Keeps s t := by
  have hp : t.tkp.placesTaken = s.tkp.placesTaken := (congrArg Links.places h :)
  have hm : t.tkp.mirror.length = s.tkp.mirror.length := (congrArg Links.mirror h :)
  refine .of_segs (by rw [hp]; exact id) (by rw [hm]; exact id) (fun g => ?_) (.inl (congrArg Links.power h :))
  have hg : t.seg g = s.seg g := by
    cases g
    · exact (congrArg Links.sga h :)
    · exact (congrArg Links.sgb h :)
  rw [hg]
  exact .refl

theorem Keeps.after {s t u : State} (h' : Keeps t u) (h : t.links = s.links) : Keeps s u := (Keeps.of_links h).trans h'

theorem UtrMoves.keeps {s t : State} (h : UtrMoves s t) : Keeps s t :=
  .of_segs (by rw [h.places]; exact id) h.mirror (fun g => (h.seg g).keeps) (.inl h.power)

theorem Keeps.modSeg {s : State} {g : Seg} {f : Segment → Segment} (h : (s.seg g).Keeps (f (s.seg g))) :
    Keeps s (s.modSeg g f) := by
  refine .of_segs (by rw [State.modSeg_tkp]; exact id) (by rw [State.modSeg_tkp]; exact id) (fun k => ?_)
    (.inl (by rw [State.modSeg_pmg]))
  by_cases e : k = g
  · subst e; rw [State.modSeg_seg]; exact h
  · rw [State.modSeg_seg_ne _ _ e]; exact .refl

/-- A place filled where one is free (R191). -/
theorem Keeps.reply {s : State} (h : s.tkp.placesTaken < 8) (tag kind : Byte) (st : Status) (body : List Byte) :
    Keeps s (s.reply tag kind st body) := by
  refine .of_segs (fun _ => ?_) id (fun g => ?_) (.inl rfl)
  · show (s.tkp.replies ++ [_]).length + s.tkp.reserved.isSome.toNat ≤ 8
    unfold Tkp.placesTaken at h
    rw [List.length_append]
    simp only [List.length_cons, List.length_nil]
    omega
  · cases g <;> exact .refl

/-- A place reserved where one is free (R191). -/
theorem Keeps.reserve {s : State} (h : s.tkp.placesTaken < 8) (tag kind : Byte) : Keeps s (s.reserve tag kind) := by
  refine .of_segs (fun _ => ?_) id (fun g => ?_) (.inl rfl)
  · show s.tkp.replies.length + 1 ≤ 8
    unfold Tkp.placesTaken at h
    omega
  · cases g <;> exact .refl

/-- A reserved place filled takes no further one (R191). -/
theorem State.fillReserved_links (s : State) (st : Status) (body : List Byte) :
    (s.fillReserved st body).links = s.links := by
  have h : (s.fillReserved st body).tkp.placesTaken = s.tkp.placesTaken := by
    unfold State.fillReserved Tkp.placesTaken
    split
    · rename_i h
      simp [h]
    · rfl
  unfold State.links
  rw [h]
  unfold State.fillReserved
  split <;> rfl

/-! ### The power states (R105, R106) -/

theorem State.enterSleep_keeps (s : State) : Keeps s s.enterSleep := by
  refine .of id id (fun g => ?_) fun _ _ g => ?_
  · cases g <;> exact (Segment.abandon_keeps _).starts
  · cases g <;> rfl

theorem deliver_links (s : State) : (deliver s).links = s.links := by rw [deliver_shape]; rfl

theorem State.settle_keeps (s : State) : Keeps s s.settle := by
  refine (Keeps.of_links (deliver_links s)).trans ?_
  unfold State.settle State.sleepIfEmpty
  split
  exacts [State.enterSleep_keeps _, .refl]

theorem State.startScan_links (s : State) : s.startScan.links = s.links := by
  unfold State.startScan
  dsimp only
  split
  · rfl
  · split <;> rfl
  · rfl

theorem State.requestScan_links (s : State) : s.requestScan.links = s.links := by
  unfold State.requestScan
  split
  · exact s.startScan_links
  · rfl

/-- A wake and the end of the load start segments on which no poll is outstanding (R105). -/
theorem Keeps.starts {s t : State} (hs : s.pmg.power = .starting ∨ s.pmg.power = .sleep)
    (ht : t.links = { s.links with sga := s.sga.start, sgb := s.sgb.start, power := .run }) : Keeps s t := by
  have hseg : ∀ g, t.seg g = (s.seg g).start := fun g => by
    cases g
    · exact (congrArg Links.sga ht :)
    · exact (congrArg Links.sgb ht :)
  have hp : t.tkp.placesTaken = s.tkp.placesTaken := (congrArg Links.places ht :)
  have hm : t.tkp.mirror.length = s.tkp.mirror.length := (congrArg Links.mirror ht :)
  have hpow : t.pmg.power = .run := (congrArg Links.power ht :)
  have ha : t.sga = s.sga.start := hseg .a
  have hb : t.sgb = s.sgb.start := hseg .b
  refine ⟨?_, ?_, fun h g => ?_⟩
  · unfold State.capacities
    rw [hp, hm, ha, hb]
    exact id
  · unfold State.sentWhole
    rw [ha, hb]
    exact id
  · obtain ⟨hw, hn⟩ := h g
    rw [hseg, hpow]
    have hk : (s.seg g).Keeps (s.seg g).start := .idle rfl (hn hs) (hn hs) rfl rfl
    exact ⟨hk.poll hw, fun _ => hn hs⟩

theorem State.startBlocks_links (s : State) :
    s.startBlocks.links = { s.links with sga := s.sga.start, sgb := s.sgb.start } := State.requestScan_links _

theorem State.wake_keeps {s : State} (add : Causes → Causes) (h : s.pmg.power = .sleep) : Keeps s (s.wake add) :=
  .starts (.inr h) (State.startBlocks_links _)

theorem Segment.resumeRun_keeps (x : Segment) : x.Keeps x.resumeRun :=
  .of_same rfl rfl rfl rfl fun h => by
    unfold Segment.resumeRun
    dsimp only
    rw [h]
    rfl

theorem State.returnToRun_keeps (s : State) : Keeps s s.returnToRun := by
  refine Keeps.trans (t := { s with sga := s.sga.resumeRun, sgb := s.sgb.resumeRun, pmg := { s.pmg with power := .run } })
    (.of_segs id id (fun g => ?_) (.inr (.inl rfl))) (.of_links (State.requestScan_links _))
  cases g <;> exact Segment.resumeRun_keeps _

theorem State.formWatch_keeps (s : State) : Keeps s s.formWatch := by
  unfold State.formWatch
  split
  · exact s.enterSleep_keeps
  · refine .of_segs id id (fun g => ?_) (.inr (.inr rfl))
    cases g <;> exact .refl

theorem Segment.startPass_keeps (x : Segment) : x.Keeps x.startPass := by
  unfold Segment.startPass
  split
  · exact .of_same rfl rfl rfl rfl fun _ => rfl
  · exact .refl

theorem State.watchInterval_keeps (s : State) : Keeps s s.watchInterval := by
  have h : Keeps s ({ s with sga := s.sga.startPass, sgb := s.sgb.startPass, pmg := { s.pmg with interval := some s.pmg.timing.watchInterval } }) := by
    refine .of_segs id id (fun g => ?_) (.inl rfl)
    cases g <;> exact Segment.startPass_keeps _
  unfold State.watchInterval
  dsimp only
  split
  exacts [h.trans (.of_links (State.requestScan_links _)), h]

theorem State.hardReset_keeps (s : State) : Keeps s s.hardReset := by
  have hseg : ∀ g, ((s.hardReset).seg g).records = [] ∧ ((s.hardReset).seg g).poll = none ∧
      ((s.hardReset).seg g).sending = none ∧ ((s.hardReset).seg g).window = none := fun g => by
    cases g <;> exact ⟨rfl, rfl, rfl, rfl⟩
  refine .of (fun _ => Nat.zero_le _) (fun _ => Nat.zero_le _) (fun g => ?_) fun _ _ g => (hseg g).2.1
  obtain ⟨h1, h2, h3, h4⟩ := hseg g
  refine ⟨fun _ => by rw [h1]; exact Nat.zero_le _, fun _ => Segment.sentWhole_of_unsent ?_,
    fun _ => Segment.pollWhole_of_none h2 h3 h4⟩
  rw [h1]
  exact fun _ h => by cases h

theorem State.softReset_keeps (s : State) (ign door : Bool) : Keeps s (s.softReset ign door) := by
  have hs : ((if s.pmg.power = .sleep then s.leaveSleep else s : State)).links = s.links := by split <;> rfl
  refine .after ?_ hs
  unfold State.softReset
  generalize (if s.pmg.power = .sleep then s.leaveSleep else s : State) = u
  dsimp only
  generalize hv : ({ u with
    tkp := { u.tkp with replies := [], mirror := [], softReset := false }
    sga := u.sga.abandon
    sgb := u.sgb.abandon
    slots := Vector.replicate 16 SlotRec.reset
    lsu := u.lsu.softReset
    positions := Vector.replicate 16 Position.reset
    chd := Chd.reset
    pnd := u.pnd.softReset
    toChime := []
    pmg := u.pmg.softReset ign door } : State) = v
  have hl : v.startBlocks.links = _ := v.startBlocks_links
  subst hv
  generalize State.startBlocks _ = t at hl
  have hseg : ∀ g, t.seg g = (u.seg g).abandon.start := fun g => by
    cases g
    · exact (congrArg Links.sga hl :)
    · exact (congrArg Links.sgb hl :)
  have hp : t.tkp.placesTaken = ([] : List Reply).length + u.tkp.reserved.isSome.toNat := (congrArg Links.places hl :)
  have hm : t.tkp.mirror.length = 0 := (congrArg Links.mirror hl :)
  refine .of (fun h => ?_) (fun _ => hm.trans_le (Nat.zero_le _)) (fun g => ?_) fun _ _ g => by rw [hseg]; rfl
  · rw [hp]
    unfold Tkp.placesTaken at h
    simp only [List.length_nil]
    omega
  · rw [hseg]
    exact ((u.seg g).abandon_keeps.trans (.idle (by rfl) (by rfl) (by rfl) (by rfl) (by rfl))).starts

end Sys2Proof.Machine
end

section
/-! SUPPORT. Every command keeps the laws of the FIFOs, of the records and of the poll. -/

namespace Sys2Proof.Machine

/-! ### The end of a poll -/

/-- A poll's outcome handed to UTR over a segment whose poll has ended, and the disable that waited (R92 to R98). -/
theorem State.afterPoll_keeps {s t : State} {g : Seg} (h : UtrMoves s t) (hp : (s.seg g).poll = none) :
    Keeps s (t.afterPoll g) := by
  have hpoll : (t.seg g).poll = none := by rw [(h.seg g).rest]; exact hp
  refine h.keeps.trans ?_
  unfold State.afterPoll
  split
  · exact .refl
  · exact Keeps.trans (.modSeg (f := Segment.stop) (Segment.stop_keeps hpoll)) (State.loseSegment_utr _ g).keeps

theorem State.endPoll_keeps (s : State) (g : Seg) (st : AnswerStatus) (body : List Byte) :
    Keeps s (s.modSeg g fun x => (x.answerSent st body).endPoll) :=
  .modSeg (Segment.answerSent_endPoll_keeps _ st body)

theorem State.endPoll_poll (s : State) (g : Seg) (st : AnswerStatus) (body : List Byte) :
    ((s.modSeg g fun x => (x.answerSent st body).endPoll).seg g).poll = none := by rw [State.modSeg_seg]; rfl

theorem State.pollMiss_keeps (s : State) (g : Seg) (p : PollRec) (st : AnswerStatus) : Keeps s (s.pollMiss g p st) :=
  (s.endPoll_keeps g st []).trans (State.afterPoll_keeps (State.handleMiss_utr _ g p.slot) (s.endPoll_poll g st []))

theorem State.pollGood_keeps (s : State) (g : Seg) (r : Report) : Keeps s (s.pollGood g r) :=
  (s.endPoll_keeps g .ok r.answer).trans
    (State.afterPoll_keeps (State.handleReport_utr _ g r) (s.endPoll_poll g .ok r.answer))

/-- A segment event that touches flags, reception and timers alone keeps the segment's laws. -/
theorem State.modSeg_keeps_same (s : State) (g : Seg) {f : Segment → Segment}
    (h : ∀ x, (f x).records = x.records ∧ (f x).poll = x.poll ∧ (f x).sending = x.sending ∧ (f x).window = x.window ∧
      (x.state = .running → (f x).state = .running)) : Keeps s (s.modSeg g f) := by
  obtain ⟨h1, h2, h3, h4, h5⟩ := h (s.seg g)
  exact .modSeg (.of_same h1 h2 h3 h4 h5)

theorem State.flagCheck_keeps (s : State) (g : Seg) : Keeps s (s.modSeg g Segment.flagCheck) :=
  s.modSeg_keeps_same g fun _ => ⟨rfl, rfl, rfl, rfl, id⟩

theorem State.flagUnsolicited_keeps (s : State) (g : Seg) : Keeps s (s.modSeg g Segment.flagUnsolicited) :=
  s.modSeg_keeps_same g fun _ => ⟨rfl, rfl, rfl, rfl, id⟩

theorem State.endReception_keeps (s : State) (g : Seg) : Keeps s (s.modSeg g Segment.endReception) :=
  s.modSeg_keeps_same g fun _ => ⟨rfl, rfl, rfl, rfl, id⟩

theorem State.judge_keeps (s : State) (g : Seg) (p : PollRec) (bytes : List Byte) : Keeps s (s.judge g p bytes) := by
  unfold State.judge
  split
  · exact (s.flagCheck_keeps g).trans (State.pollMiss_keeps ..)
  · split
    · exact s.pollGood_keeps g _
    · exact (s.flagUnsolicited_keeps g).trans (State.pollMiss_keeps ..)

theorem State.lineStuck_keeps (s : State) (g : Seg) : Keeps s (s.lineStuck g) := by
  have h1 : Keeps s (s.stuckPoll g) ∧ ((s.stuckPoll g).seg g).poll = none := by
    unfold State.stuckPoll
    split
    · rename_i p _
      have h := State.handleMiss_utr (s.modSeg g fun x => (x.answerSent .segmentFault []).endPoll) g p.slot
      refine ⟨(s.endPoll_keeps g .segmentFault []).trans h.keeps, ?_⟩
      rw [(h.seg g).rest]
      exact s.endPoll_poll g .segmentFault []
    · exact ⟨.refl, ‹_›⟩
  obtain ⟨hk, hp⟩ := h1
  unfold State.lineStuck
  generalize s.stuckPoll g = u at hk hp
  refine hk.trans (Keeps.trans (.modSeg (f := Segment.enterFault) (Segment.enterFault_keeps hp)) ?_)
  exact State.afterPoll_keeps (State.loseSegment_utr _ g) (by rw [State.modSeg_seg]; exact hp)

/-- The reply window starts with the POLL's last bit (R91). -/
theorem Segment.pollSent_keeps (x : Segment) : x.Keeps x.pollSent := by
  unfold Segment.pollSent
  split
  · rename_i p hp
    split
    · refine ⟨id, id, fun ⟨h1, _, _⟩ => ⟨h1, fun _ => ?_, .inl rfl⟩, id⟩
      exact Option.isSome_of_eq_some hp
    · exact .refl
  · exact .refl

theorem State.pollStart_keeps {s : State} {g : Seg} (h : (s.seg g).ready = true) : Keeps s (s.pollStart g) := by
  obtain ⟨hs, hp, -⟩ := Segment.ready_iff.mp h
  have hstart : ∀ f : Segment → Segment, (s.seg g).Starts (f (s.seg g)) →
      (s.pmg.power = .run ∨ s.pmg.power = .parkWatch) → Keeps s (s.modSeg g f) := fun f hf hpow => by
    refine .of (by rw [State.modSeg_tkp]; exact id) (by rw [State.modSeg_tkp]; exact id) (fun k => ?_) fun e => ?_
    · by_cases e : k = g
      · subst e; rw [State.modSeg_seg]; exact hf
      · rw [State.modSeg_seg_ne _ _ e]; exact Segment.Keeps.refl.starts
    · rw [State.modSeg_pmg] at e
      rcases hpow with hpow | hpow <;> rw [hpow] at e <;> rcases e with e | e <;> cases e
  unfold State.pollStart
  split
  · rename_i hr
    exact hstart _ (Segment.pollInRun_starts hs hp) (.inl hr)
  · rename_i hr
    split
    · exact hstart _ (Segment.pollInPass_starts _ _ hs hp) (.inr hr)
    · exact .refl
  · exact .refl

/-! ### Frames and table writes -/

theorem Keeps.frame {own : State → State} (h : ∀ s, s.tkp.placesTaken < 8 → Keeps s (own s)) (s : State)
    (kind tag : Byte) (fits : Bool) : Keeps s (s.takeFrame kind tag fits own) := by
  unfold State.takeFrame
  dsimp only
  split
  · exact .refl
  split
  · exact .of_links rfl
  rename_i hf
  replace hf : s.rxHunt.tkp.placesTaken < 8 := Nat.lt_of_not_le hf
  have h0 : Keeps s s.rxHunt := .of_links rfl
  split
  · exact h0.trans (.reply hf ..)
  split
  · exact h0.trans (.reply hf ..)
  · exact h0.trans (h _ hf)

/-- An owner that answers no frame and keeps the laws. -/
def OwnKeeps (own : Nat → List Byte → State → Except Status State) : Prop :=
  ∀ i bs s s', own i bs s = .ok s' → Keeps s s' ∧ s'.tkp = s.tkp

/-- An owner that touches no link. -/
theorem OwnKeeps.of_links {own : Nat → List Byte → State → Except Status State}
    (h : ∀ i bs s s', own i bs s = .ok s' → s'.links = s.links ∧ s'.tkp = s.tkp) : OwnKeeps own :=
  fun i bs s s' ho => ⟨.of_links (h i bs s s' ho).1, (h i bs s s' ho).2⟩

theorem State.takeWrite_keeps {own : Nat → List Byte → State → Except Status State} (h : OwnKeeps own) (s : State)
    (t : TableId) (tag index : Byte) (entry : List Byte) : Keeps s (s.takeWrite t tag index entry own) := by
  refine Keeps.frame (fun s hs => ?_) s _ _ _
  unfold State.writeTable
  dsimp only
  split
  · exact .reply hs ..
  split
  · exact .reply hs ..
  split
  · exact .reply hs ..
  split
  · exact .reply hs ..
  · rename_i ho
    obtain ⟨hk, ht⟩ := h _ _ _ _ ho
    exact hk.trans (.reply (by rw [ht]; exact hs) ..)

theorem ownNode_keeps : OwnKeeps ownNode := .of_links fun i bs s s' h => by
  unfold ownNode at h
  dsimp only at h
  split at h
  · cases h
  split at h <;> cases h
  exact ⟨rfl, rfl⟩

theorem State.clearIfSeated_links (s : State) (p : Pos) :
    (s.clearIfSeated p).links = s.links ∧ (s.clearIfSeated p).tkp = s.tkp := by
  unfold State.clearIfSeated
  split <;> exact ⟨rfl, rfl⟩

theorem ownSeatmap_keeps : OwnKeeps ownSeatmap := .of_links fun i bs s s' h => by
  unfold ownSeatmap at h
  dsimp only at h
  split at h
  · cases h
  split at h
  · cases h
  cases h
  split
  · exact s.clearIfSeated_links _
  · exact ⟨rfl, rfl⟩

theorem ownPoscfg_keeps : OwnKeeps ownPoscfg := .of_links fun i bs s s' h => by
  unfold ownPoscfg at h
  dsimp only at h
  split at h <;> cases h
  exact ⟨rfl, rfl⟩

theorem ownRule_keeps : OwnKeeps ownRule := .of_links fun i bs s s' h => by
  unfold ownRule at h
  dsimp only at h
  split at h
  · cases h
  split at h <;> cases h
  exact ⟨rfl, rfl⟩

/-- Going through the positions with RME touches no link. -/
theorem fold_links {f : State → Pos → State} (h : ∀ t p, (f t p).links = t.links ∧ (f t p).tkp = t.tkp) (ps : List Pos)
    (s : State) : (ps.foldl f s).links = s.links ∧ (ps.foldl f s).tkp = s.tkp := by
  induction ps generalizing s with
  | nil => exact ⟨rfl, rfl⟩
  | cons p ps ih => exact ⟨(ih _).1.trans (h s p).1, (ih _).2.trans (h s p).2⟩

theorem State.evalProfile_links (s : State) (i : Fin 4) :
    (s.evalProfile i).links = s.links ∧ (s.evalProfile i).tkp = s.tkp :=
  fold_links (fun t p => by split <;> exact ⟨rfl, rfl⟩) _ s

theorem State.evalAll_links (s : State) : s.evalAll.links = s.links := (fold_links (f := State.evalAt) (fun _ _ => ⟨rfl, rfl⟩) _ s).1

theorem State.tickAll_links (s : State) : s.tickAll.links = s.links := (fold_links (f := State.tickAt) (fun _ _ => ⟨rfl, rfl⟩) _ s).1

theorem ownProfile_keeps : OwnKeeps ownProfile := .of_links fun i bs s s' h => by
  unfold ownProfile at h
  dsimp only at h
  split at h
  · cases h
  · rename_i e _
    rw [← Except.ok.inj h]
    exact ({ s with profiles := put s.profiles (Fin.ofNat 4 i) e } : State).evalProfile_links (Fin.ofNat 4 i)

theorem Segment.endIdle_keeps (x : Segment) : x.Keeps x.endIdle := by
  unfold Segment.endIdle
  split
  · exact .of_same rfl rfl rfl rfl fun _ => rfl
  · exact .refl

theorem Segment.writeRing_keeps (x : Segment) (i : RingIx) (e : RingEntry) : x.Keeps (x.writeRing i e) := by
  have h : x.Keeps { x with ring := put x.ring i e } := .of_same rfl rfl rfl rfl id
  exact h.trans ((Segment.endIdle_keeps _).trans (Segment.checkWalk_answered _).keeps)

theorem ownRing_keeps (g : Seg) : OwnKeeps (ownRing g) := by
  intro i bs s s' h
  unfold ownRing at h
  split at h <;> cases h
  exact ⟨.modSeg (Segment.writeRing_keeps ..), State.modSeg_tkp ..⟩

theorem Segment.storeCfg_keeps (x : Segment) (c : SegCfg) : x.Keeps (x.storeCfg c) := by
  have h : x.Keeps { x with cfg := c, headMoved := x.headMoved || c.head ≠ x.cfg.head } := .of_same rfl rfl rfl rfl id
  exact h.trans (Segment.endIdle_keeps _)

theorem Segment.enableNow_keeps (x : Segment) : x.Keeps x.enableNow := by
  unfold Segment.enableNow
  split
  · exact .of_same rfl rfl rfl rfl fun _ => rfl
  · exact .refl

theorem State.writeSegCfg_keeps (s : State) (g : Seg) (c : SegCfg) : Keeps s (s.writeSegCfg g c) := by
  unfold State.writeSegCfg
  dsimp only
  have h1 : Keeps s (s.modSeg g fun x => x.storeCfg c) := .modSeg (Segment.storeCfg_keeps _ c)
  generalize (s.modSeg g fun x => x.storeCfg c) = u at h1
  refine h1.trans (Keeps.trans ?_ (.modSeg (f := Segment.checkWalk) (Segment.checkWalk_answered _).keeps))
  split
  · exact .modSeg (Segment.enableNow_keeps _)
  split
  · rename_i h
    exact Keeps.trans (.modSeg (f := Segment.stop) (Segment.stop_keeps h.2)) (State.loseSegment_utr _ g).keeps
  · exact .refl

theorem State.tkp_of_around {s t : State} (h : t.around = s.around) : t.tkp = s.tkp := (congrArg State.tkp h :)

@[simp] theorem State.dropRecords_tkp (s : State) (i : Slot) : (s.dropRecords i).tkp = s.tkp := by
  unfold State.dropRecords
  split
  exacts [State.modSeg_tkp .., rfl]

@[simp] theorem State.loseFedBy_tkp (s : State) (i : Slot) : (s.loseFedBy i).tkp = s.tkp :=
  State.tkp_of_around (s.loseFedBy_spec i).1

theorem State.loseSlot_tkp (s : State) (i : Slot) : (s.loseSlot i).tkp = s.tkp := by
  unfold State.loseSlot
  rw [State.setSlot_tkp, State.loseFedBy_tkp, State.dropRecords_tkp]

theorem State.loseSegment_tkp (s : State) (g : Seg) : (s.loseSegment g).tkp = s.tkp := by
  unfold State.loseSegment
  generalize List.finRange 16 = is
  induction is generalizing s with
  | nil => rfl
  | cons i is ih =>
    rw [List.foldl_cons, ih]
    split
    exacts [s.loseSlot_tkp i, rfl]

theorem State.writeSegCfg_tkp (s : State) (g : Seg) (c : SegCfg) : (s.writeSegCfg g c).tkp = s.tkp := by
  unfold State.writeSegCfg
  dsimp only
  rw [State.modSeg_tkp]
  split
  · rw [State.modSeg_tkp, State.modSeg_tkp]
  split
  · unfold State.stopSegment
    rw [State.loseSegment_tkp, State.modSeg_tkp, State.modSeg_tkp]
  · rw [State.modSeg_tkp]

theorem ownSegcfg_keeps : OwnKeeps ownSegcfg := by
  intro i bs s s' h
  unfold ownSegcfg at h
  split at h <;> cases h
  exact ⟨s.writeSegCfg_keeps _ _, s.writeSegCfg_tkp _ _⟩

theorem ownLocalcfg_keeps : OwnKeeps ownLocalcfg := .of_links fun i bs s s' h => by
  unfold ownLocalcfg at h
  dsimp only at h
  split at h
  · cases h
  · rename_i c _
    cases h
    have h1 := ({ s with lsu := { s.lsu with cfg := c } } : State).clearIfSeated_links 0
    have h2 := fun u : State => u.clearIfSeated_links 1
    split <;> split
    · exact ⟨rfl, rfl⟩
    · exact h1
    · exact h2 _
    · exact ⟨(h2 _).1.trans h1.1, (h2 _).2.trans h1.2⟩

theorem ownTiming_keeps : OwnKeeps ownTiming := .of_links fun i bs s s' h => by
  unfold ownTiming at h
  split at h <;> cases h
  exact ⟨rfl, rfl⟩

theorem ownPanelcfg_keeps : OwnKeeps ownPanelcfg := .of_links fun i bs s s' h => by
  unfold ownPanelcfg at h
  split at h <;> cases h
  exact ⟨rfl, rfl⟩

theorem ownProtect_keeps : OwnKeeps ownProtect := .of_links fun i bs s s' h => by
  cases h
  exact ⟨rfl, rfl⟩

theorem State.takeWriteOf_keeps (s : State) (t : TableId) (tag index : Byte) (entry : List Byte) :
    Keeps s (s.takeWriteOf t tag index entry) := by
  cases t
  · exact s.takeWrite_keeps ownNode_keeps ..
  · exact s.takeWrite_keeps ownSeatmap_keeps ..
  · exact s.takeWrite_keeps ownPoscfg_keeps ..
  · exact s.takeWrite_keeps ownRule_keeps ..
  · exact s.takeWrite_keeps ownProfile_keeps ..
  · exact s.takeWrite_keeps (ownRing_keeps .a) ..
  · exact s.takeWrite_keeps (ownRing_keeps .b) ..
  · exact s.takeWrite_keeps ownSegcfg_keeps ..
  · exact s.takeWrite_keeps ownLocalcfg_keeps ..
  · exact s.takeWrite_keeps ownTiming_keeps ..
  · exact s.takeWrite_keeps ownPanelcfg_keeps ..
  · exact s.takeWrite_keeps ownProtect_keeps ..

/-- The state in which a request's record is appended (R99). -/
def Segment.requestState (x : Segment) (slot : Slot) : RecordState :=
  match x.refusal slot with
  | none => .queued
  | some a => .answered a [] (x.records.countP PassRecord.isAnswered)

theorem Segment.requestState_not_sent (x : Segment) (slot : Slot) : x.requestState slot ≠ .sent := by
  unfold Segment.requestState
  split <;> exact fun e => by cases e

theorem Segment.accept_eq (x : Segment) (tag : Byte) (slot : Slot) (body : List Byte) :
    x.accept tag slot body = { x with
      records := x.records ++ [{ tag := tag, slot := slot, body := body, state := x.requestState slot }] } := by
  unfold Segment.accept Segment.requestState
  cases x.refusal slot <;> rfl

/-- A record appended that is not SENT, where there is room for it (R99). -/
theorem Segment.accept_keeps {x : Segment} (h : x.records.length < 3) (tag : Byte) (slot : Slot) (body : List Byte) :
    x.Keeps (x.accept tag slot body) := by
  rw [Segment.accept_eq]
  have hs := x.requestState_not_sent slot
  refine ⟨fun _ => ?_, fun ⟨h1, h2⟩ => ⟨?_, fun q hq hsent => ?_⟩, id, id⟩
  · exact (List.length_append ..).trans_le h
  · rw [List.countP_append, List.countP_singleton, if_neg fun e => hs (of_decide_eq_true e)]
    exact h1
  · rcases List.mem_append.mp hq with hq | hq
    · exact h2 q hq hsent
    · rw [List.mem_singleton.mp hq] at hsent
      exact absurd hsent hs

/-- A request is answered, or appended where the segment has room for it (R99, R195). -/
theorem State.request_keeps {s : State} (h : s.tkp.placesTaken < 8) (tag slotByte : Byte) (body : List Byte) :
    Keeps s (s.request tag slotByte body) := by
  unfold State.request
  split
  · exact .reply h ..
  dsimp only
  split
  · split
    · exact .reply h ..
    · exact .modSeg (Segment.accept_keeps (Nat.lt_of_not_le ‹_›) ..)
  · exact .reply h ..

theorem PassRecord.moveUp_sent (r : PassRecord) : r.moveUp.state = .sent ↔ r.state = .sent := by
  unfold PassRecord.moveUp
  split
  · rename_i h
    rw [h]
    exact iff_of_false (by simp) (by simp)
  · rfl

theorem PassRecord.moveUp_of_sent {r : PassRecord} (h : r.state = .sent) : r.moveUp = r := by
  unfold PassRecord.moveUp
  rw [h]

/-- The record whose NODEANS was sent goes, and the others keep their state but for the rank (R103). -/
theorem Segment.removeOffer_keeps (x : Segment) : x.Keeps x.removeOffer := by
  unfold Segment.removeOffer
  generalize hp : (fun r : PassRecord => match r.state with
      | .answered _ _ n => decide (n = 0)
      | _ => false) = p
  have hsub := List.eraseP_sublist (p := p) (l := x.records)
  refine ⟨fun h => ?_, fun ⟨h1, h2⟩ => ⟨?_, fun q hq hs => ?_⟩, id, id⟩
  · rw [List.length_map]
    exact hsub.length_le.trans h
  · rw [List.countP_map]
    refine Nat.le_trans ?_ (hsub.countP_le.trans h1)
    exact List.countP_mono_left fun q _ h => by simpa [PassRecord.moveUp_sent] using h
  · obtain ⟨q0, hq0, rfl⟩ := List.mem_map.mp hq
    have hs0 := (q0.moveUp_sent).mp hs
    rw [PassRecord.moveUp_of_sent hs0]
    exact h2 q0 (hsub.subset hq0) hs0

end Sys2Proof.Machine
end

section
/-! SUPPORT. Every command keeps the laws of the FIFOs, of the records and of the poll: resets, sends, the store. -/

namespace Sys2Proof.Machine

/-- What a command answers keeps the laws. -/
def StepKeeps (s : State) (r : StepResult) : Prop := ∀ t, r = .next t → Keeps s t

theorem StepKeeps.next {s t : State} (h : Keeps s t) : StepKeeps s (.next t) := by
  rintro u ⟨⟩; exact h

theorem StepKeeps.of_links {s t : State} (h : t.links = s.links) : StepKeeps s (.next t) := .next (.of_links h)

theorem StepKeeps.ite {s t u : State} {c : Prop} [Decidable c] (ht : c → Keeps s t) (hu : Keeps s u) :
    StepKeeps s (.next (if c then t else u)) := by
  split
  exacts [.next (ht ‹_›), .next hu]

theorem StepKeeps.frame {own : State → State} (h : ∀ s, s.tkp.placesTaken < 8 → Keeps s (own s)) (s : State)
    (kind tag : Byte) (fits : Bool) : StepKeeps s (.next (s.takeFrame kind tag fits own)) :=
  .next (Keeps.frame h s kind tag fits)

theorem Keeps.settle {s t : State} (h : Keeps s t) : Keeps s t.settle := h.trans t.settle_keeps

/-! ### Power, sends and the store -/

theorem State.ignitionChange_keeps (s : State) (on : Bool) : Keeps s (s.ignitionChange on) := by
  unfold State.ignitionChange
  split
  · exact .refl
  · exact .of_links (State.evalAll_links _)
  · exact .of_links (State.evalAll_links _)
  · have h : Keeps s (s.setIgnition true).returnToRun := .after (State.returnToRun_keeps _) rfl
    exact h.trans (.of_links (State.evalAll_links _))
  · rename_i hp
    have h : Keeps s ((s.setIgnition true).wake fun c => { c with ign := true }) :=
      .after (State.wake_keeps (s := s.setIgnition true) _ hp) rfl
    exact h.trans (.of_links (State.evalAll_links _))
  · exact .of_links rfl

theorem State.takeVehicle_links (s : State) (b : Byte) : (s.takeVehicle b).links = s.links := by
  have hd : ∀ m : Pmg, m.dwellReview.power = m.power := fun m => by
    unfold Pmg.dwellReview
    split
    · split <;> rfl
    · rfl
  have hr : ∀ u : State, (u.modPmg Pmg.dwellReview).links = u.links := fun u => by
    unfold State.links
    rw [State.modPmg_pmg, hd]
    rfl
  unfold State.takeVehicle
  dsimp only
  split <;> split
  · exact (hr _).trans (State.evalAll_links _)
  · exact hr _
  · exact State.evalAll_links _
  · rfl

theorem State.actSleepReq_keeps (s : State) : Keeps s s.actSleepReq := by
  unfold State.actSleepReq
  split
  exacts [.after (State.formWatch_keeps _) rfl, .refl]

/-- A REPLY sent frees its place (R191). -/
theorem State.freeHead_keeps (s : State) : Keeps s s.freeHead := by
  refine .of_segs (fun h => ?_) id (fun g => ?_) (.inl rfl)
  · refine Nat.le_trans (Nat.add_le_add_right ?_ _) h
    exact (List.length_tail ..).trans_le (Nat.sub_le _ _)
  · cases g <;> exact .refl

theorem State.replySent_keeps (s : State) (kind : Byte) (st : Status) (ign door : Bool) :
    Keeps s (s.replySent kind st ign door) := by
  unfold State.replySent
  dsimp only
  refine s.freeHead_keeps.trans ?_
  split
  · exact State.softReset_keeps _ ign door
  split
  exacts [State.actSleepReq_keeps _, .refl]

theorem State.sendDone_keeps (s : State) (act : SendAction) (ign door : Bool) : Keeps s (s.sendDone act ign door) := by
  unfold State.sendDone
  split
  · exact .refl
  · exact s.replySent_keeps ..
  · exact .modSeg (Segment.removeOffer_keeps _)
  · refine .of_segs id (fun h => ?_) (fun g => ?_) (.inl rfl)
    · exact (List.length_tail ..).trans_le ((Nat.sub_le _ _).trans h)
    · cases g <;> exact .refl

theorem State.stageEntry_keeps {s : State} (h : s.tkp.placesTaken < 8) (tag table index : Byte) :
    Keeps s (s.stageEntry tag table index) := by
  unfold State.stageEntry
  split
  · exact .after (.reply (s := s.badTable) h ..) rfl
  · split
    · exact .reply h ..
    split
    · exact .reply h ..
    · exact .after (.reply (s := s.modCfs _) h ..) rfl

theorem State.readTable_keeps {s : State} (h : s.tkp.placesTaken < 8) (tag table index : Byte) :
    Keeps s (s.readTable tag table index) := by
  unfold State.readTable
  split
  · exact .after (.reply (s := s.badTable) h ..) rfl
  · rename_i t _
    split
    · exact .reply h ..
    · exact .after (.reply (s := { s with free := s.free + t.freeUsed }) h ..) rfl

/-- A store operation starts over a place that is free (R208, R210, R211). -/
theorem State.startOp_keeps {s : State} (h : s.tkp.placesTaken < 8) (tag kind : Byte) (op : StoreOp) :
    Keeps s (s.startOp tag kind op) :=
  .after (.reserve (s := s.modCfs _) h ..) rfl

/-- A cancelled commit fills its own place, and the NVCANCEL a free one (R209). -/
theorem State.cancelCommit_keeps {s : State} (h : s.tkp.placesTaken < 8) (tag : Byte) :
    Keeps s (s.cancelCommit.reply tag Kind.nvcancel .ok []) := by
  have hl : s.cancelCommit.links = s.links := State.fillReserved_links _ _ _
  have hp : s.cancelCommit.tkp.placesTaken < 8 := (congrArg Links.places hl : _ = _).trans_lt h
  exact .after (.reply hp ..) hl

theorem State.clearFlags_keeps {s t : State} {block mask : Byte} {code : Nat}
    (h : s.clearFlags block mask = some (t, code)) : Keeps s t ∧ t.tkp.placesTaken = s.tkp.placesTaken := by
  unfold State.clearFlags at h
  dsimp only at h
  split at h <;> cases h
  · exact ⟨.of_links rfl, rfl⟩
  · exact ⟨.modSeg (.of_same rfl rfl rfl rfl id), rfl⟩
  · exact ⟨.modSeg (.of_same rfl rfl rfl rfl id), rfl⟩
  · exact ⟨.of_links rfl, rfl⟩
  · exact ⟨.of_links rfl, rfl⟩

theorem State.whileScanning_links (s : State) (f : Pnd → Pnd) : (s.whileScanning f).links = s.links := by
  unfold State.whileScanning
  split <;> rfl

theorem State.takeBlock_links (s : State) (p : Pos) (src : Source) (b : Block) :
    (s.takeBlock p src b).links = s.links := (congrArg State.links (s.takeBlock_around p src b) :)

theorem State.conversion_links (s : State) (n : Count) (a b : Bool) : (s.conversion n a b).links = s.links := by
  unfold State.conversion
  split
  · rfl
  · rename_i c cs _
    dsimp only
    have h : ∀ u : State, (u.afterConversion c n a b).links = u.links := fun u => by
      unfold State.afterConversion
      split
      · split
        exacts [State.takeBlock_links _ _ _ _, rfl]
      · split
        exacts [State.takeBlock_links _ _ _ _, rfl]
      · rfl
      · rfl
      · rfl
    split
    · exact (State.startScan_links _).trans (h _)
    · exact h _

end Sys2Proof.Machine
end

section
/-! SUPPORT. Every command keeps the laws of the FIFOs, of the records and of the poll, command by command. -/

namespace Sys2Proof.Machine

theorem execTblwrNode_keeps (tag : Byte) (payload : List Byte) (s : State) : StepKeeps s (execTblwrNode tag payload s) := by
  unfold execTblwrNode
  refine .next (Keeps.settle ?_)
  split
  · split
    · exact s.takeWriteOf_keeps ..
    · rename_i i _ _ _
      exact Keeps.frame (own := fun s1 => s1.badTable.refuseTable tag Kind.tblwr _ i .table)
        (fun s h => .after (.reply (s := s.badTable) h ..) rfl) s ..
  · exact Keeps.frame (fun _ _ => .refl) s ..

theorem exec_keeps (c : Instr) (s : State) : StepKeeps s (exec c s) := by
  cases c
  case hardReset => exact .next s.hardReset_keeps
  case loadComplete => exact .ite (fun h => .starts (.inl h) (State.startBlocks_links _)) .refl
  case ignitionChange on =>
    unfold exec execIgnitionChange
    exact .ite (fun _ => .refl) (s.ignitionChange_keeps on).settle
  case doorChange ajar =>
    unfold exec execDoorChange
    refine .ite (fun _ => .refl) ?_
    split
    · exact .refl
    · exact .of_links rfl
    · refine .of_links ?_
      unfold State.modPmg State.links Pmg.dwellReview
      dsimp only
      split
      · split <;> rfl
      · rfl
    · rename_i hp
      split
      · exact .after (State.wake_keeps (s := s.setDoor ajar) _ hp) rfl
      · exact .of_links rfl
  case buckleWake => exact .ite (fun h => s.wake_keeps _ h.1) .refl
  case trunkWake => exact .ite (fun h => s.wake_keeps _ h.1) .refl
  case rxHuntResume => exact .ite (fun _ => .of_links rfl) .refl
  case frameGapAbandon => exact .ite (fun _ => .of_links rfl) .refl
  case lengthAbandon => exact .ite (fun _ => .of_links rfl) .refl
  case trunkCheckFail => exact .ite (fun _ => .of_links rfl) .refl
  case unknownKind =>
    unfold exec execUnknownKind
    refine .ite (fun _ => ?_) .refl
    dsimp only
    split
    · exact .of_links rfl
    · rename_i h
      exact .after (.reply (Nat.lt_of_not_le h) ..) rfl
  case vehstat payload =>
    unfold exec execVehstat
    refine .ite (fun _ => .refl) ?_
    split
    · exact .of_links rfl
    split
    · exact Keeps.settle (.of_links (State.takeVehicle_links _ _))
    · exact .of_links rfl
  case tblwrNode tag payload => exact execTblwrNode_keeps tag payload s
  case tblwrSeatmap => exact .next (s.takeWrite_keeps ownSeatmap_keeps ..).settle
  case tblwrPoscfg => exact .next (s.takeWrite_keeps ownPoscfg_keeps ..).settle
  case tblwrRule => exact .next (s.takeWrite_keeps ownRule_keeps ..)
  case tblwrProfile => exact .next (s.takeWrite_keeps ownProfile_keeps ..).settle
  case tblwrRingA => exact .next (s.takeWrite_keeps (ownRing_keeps .a) ..)
  case tblwrRingB => exact .next (s.takeWrite_keeps (ownRing_keeps .b) ..)
  case tblwrSegcfg => exact .next (s.takeWrite_keeps ownSegcfg_keeps ..).settle
  case tblwrLocalcfg => exact .next (s.takeWrite_keeps ownLocalcfg_keeps ..).settle
  case tblwrTiming => exact .next (s.takeWrite_keeps ownTiming_keeps ..)
  case tblwrPanelcfg => exact .next (s.takeWrite_keeps ownPanelcfg_keeps ..)
  case tblwrProtect => exact .next (s.takeWrite_keeps ownProtect_keeps ..)
  case tblrd => exact .frame (fun s h => State.readTable_keeps h ..) s _ _ _
  case posqry =>
    refine .frame (fun s h => ?_) s _ _ _
    split <;> exact .reply h ..
  case nodereq => exact .frame (fun s h => State.request_keeps h ..) s _ _ _
  case stage => exact .frame (fun s h => State.stageEntry_keeps h ..) s _ _ _
  case commit =>
    refine .frame (fun s h => ?_) s _ _ _
    split
    exacts [.reply h .., State.startOp_keeps h ..]
  case nvcancel =>
    refine .frame (fun s h => ?_) s _ _ _
    split
    · exact .after (.reply (s := s.modCfs _) h ..) rfl
    · exact State.cancelCommit_keeps h _
    · exact .reply h ..
  case nverase =>
    refine .frame (fun s h => ?_) s _ _ _
    split
    exacts [.reply h .., State.startOp_keeps h ..]
  case protload =>
    refine .frame (fun s h => ?_) s _ _ _
    split
    · exact .reply h ..
    · exact .after (.reply (s := s.modCfs Cfs.protload) h ..) rfl
  case callock =>
    refine .frame (fun s h => ?_) s _ _ _
    split
    · exact .reply h ..
    split
    exacts [.reply h .., State.startOp_keeps h ..]
  case sleepreq =>
    refine .frame (fun s h => ?_) s _ _ _
    split
    · exact .after (.reply (s := s.modPmg _) h ..) rfl
    · exact .reply h ..
  case alertack =>
    refine .frame (fun s h => ?_) s _ _ _
    split
    · exact .after (.reply (s := s.silence) h ..) rfl
    · exact .reply h ..
    · exact .reply h ..
  case chimetst => exact .frame (fun s h => .after (.reply (s := { s with chd := s.chd.raiseTest }) h ..) rfl) s _ _ _
  case paneltst =>
    exact .frame (fun s h => .after (.reply (s := { s with pnd := { s.pnd with test := true } }) h ..) rfl) s _ _ _
  case clrflag tag payload =>
    refine .frame (fun s h => ?_) s _ _ _
    split
    · rename_i hc
      obtain ⟨hk, hp⟩ := State.clearFlags_keeps hc
      exact hk.trans (.reply (hp.trans_lt h) ..)
    · exact .reply h ..
  case identq => exact .frame (fun s h => .reply h ..) s _ _ _
  case softrst =>
    exact .frame (fun s h => .after (.reply (s := s.modTkp fun t => { t with softReset := true }) h ..) rfl) s _ _ _
  case sendReply =>
    refine .next ?_
    split <;> exact .of_links rfl
  case sendAlert =>
    refine .next ?_
    split <;> exact .of_links rfl
  case sendNodeans =>
    refine .next ?_
    split <;> exact .of_links rfl
  case sendWakenote =>
    refine .next ?_
    split <;> exact .of_links rfl
  case sendPosnote =>
    refine .next ?_
    split <;> exact .of_links rfl
  case sendSeatnote =>
    refine .next ?_
    split <;> exact .of_links rfl
  case sendMirror =>
    refine .next ?_
    split <;> exact .of_links rfl
  case sendComplete ign door =>
    refine .next ?_
    split
    · rename_i x _
      exact Keeps.settle (.after (State.sendDone_keeps _ x.action ign door) rfl)
    · exact .refl
  case spacingExpiry g => exact .next (s.modSeg_keeps_same g fun _ => ⟨rfl, rfl, rfl, rfl, id⟩)
  case pollStart g => exact .ite State.pollStart_keeps .refl
  case pollSent g => exact .next (.modSeg (Segment.pollSent_keeps _))
  case segmentFrame g bytes =>
    unfold exec execSegmentFrame
    refine .ite (fun _ => ?_) .refl
    have h1 := s.endReception_keeps g
    dsimp only
    split
    exacts [(h1.trans (State.judge_keeps _ g _ bytes)).settle, h1.trans (State.flagUnsolicited_keeps _ g)]
  case segmentFrameCut g =>
    unfold exec execSegmentFrameCut
    refine .ite (fun _ => ?_) .refl
    have h1 := s.endReception_keeps g
    dsimp only
    split
    · exact (h1.trans ((State.flagCheck_keeps _ g).trans (State.pollMiss_keeps _ g _ _))).settle
    · exact h1.trans (State.flagUnsolicited_keeps _ g)
  case replyWindowExpiry g =>
    refine .next ?_
    have h1 : Keeps s (s.modSeg g Segment.ignoreFrame) := s.modSeg_keeps_same g fun _ => ⟨rfl, rfl, rfl, rfl, id⟩
    split
    · split
      exacts [(h1.trans (State.pollMiss_keeps _ g _ _)).settle, .refl]
    · exact .refl
  case lineStuckDetect g => exact .ite (fun _ => (s.lineStuck_keeps g).settle) .refl
  case probeExpiry g _ => exact .ite (fun _ => s.modSeg_keeps_same g fun _ => ⟨rfl, rfl, rfl, rfl, fun _ => rfl⟩) .refl
  case scanIntervalExpiry => exact .ite (fun _ => .of_links (State.requestScan_links _)) .refl
  case conversionComplete n a b =>
    unfold exec execConversionComplete
    exact .ite (fun _ => .refl) (Keeps.settle (.of_links (s.conversion_links n a b)))
  case reminderTick => exact .ite (fun _ => Keeps.settle (.of_links (State.tickAll_links _))) .refl
  case alertPatternTimer => exact .of_links rfl
  case chimeTestQuarter => exact .of_links rfl
  case chimeTestEnd => exact .ite (fun _ => .of_links rfl) .refl
  case scanFrameStart => exact .of_links (State.whileScanning_links s _)
  case commonSlot => exact .of_links (State.whileScanning_links s _)
  case dutyEnd => exact .of_links (State.whileScanning_links s _)
  case flashPhase => exact .of_links (State.whileScanning_links s _)
  case panelTestExpiry => exact .of_links rfl
  case rundownExpiry => exact .ite (fun _ => .after (State.formWatch_keeps _) rfl) .refl
  case watchIntervalExpiry => exact .ite (fun _ => s.watchInterval_keeps) .refl
  case dwellTick =>
    unfold exec execDwellTick
    refine .ite (fun _ => ?_) .refl
    dsimp only
    split <;> exact .of_links rfl
  case alertRepeatExpiry => exact .ite (fun _ => .of_links rfl) .refl
  case watchElapsedTick =>
    unfold exec execWatchElapsedTick
    refine .ite (fun _ => ?_) .refl
    dsimp only
    split
    exacts [.after (State.enterSleep_keeps _) rfl, .of_links rfl]
  case commitComplete same =>
    refine .next ?_
    split
    · split <;> exact .of_links (State.fillReserved_links _ _ _)
    · exact .refl
  case eraseComplete =>
    refine .next ?_
    split
    exacts [.of_links (State.fillReserved_links _ _ _), .refl]
  case lockComplete =>
    refine .next ?_
    split
    exacts [.of_links (State.fillReserved_links _ _ _), .refl]
  case frameSync => exact .ite (fun _ => .of_links rfl) .refl
  case segmentFrameBegin g => exact .ite (fun _ => s.modSeg_keeps_same g fun _ => ⟨rfl, rfl, rfl, rfl, id⟩) .refl
  case segmentLineIdle g => exact .ite (fun _ => s.endReception_keeps g) .refl

/-- Every step keeps the laws. -/
theorem keeps_of_step {s t : State} (h : step s = .next t) : Keeps s t := by
  unfold step at h
  split at h
  · cases h; exact .refl
  · exact .after (exec_keeps _ _ t h) rfl

/-- Settles O53: command by command, no FIFO and no segment outgrows its places. -/
theorem stepKeepsCapacities : Obligations.StepKeepsCapacities := fun _ _ hc h => (keeps_of_step h).capacities hc

/-- Settles O54: a poll start attaches one record, and every end of a poll answers it. -/
theorem stepKeepsSegmentLaws : Obligations.StepKeepsSegmentLaws := fun _ _ h =>
  ⟨(keeps_of_step h).sent, (keeps_of_step h).polls⟩

end Sys2Proof.Machine
end

section
/-! SUPPORT. The segments' own events, the ring writes, the requests to seat units and the completions of sends. -/

namespace Sys2Proof.Machine

/-! ### Timers and the line (R83, R88, R91, R93, R97) -/

section
variable {s : State} {g : Seg}

theorem execSegmentFrameBegin_starts (hl : (s.seg g).listens = true) (hs : (s.seg g).sending = none)
    (hr : (s.seg g).reception = .none) :
    exec (.segmentFrameBegin g) s = .next (s.setSeg g { s.seg g with reception := .receiving }) :=
  congrArg Host.Outcome.next (if_pos ⟨hl, hs, hr⟩)

theorem Segment.not_listens_of {x : Segment} (h : x.state = .stopped ∨ x.state = .fault) : ¬x.listens = true := by
  unfold Segment.listens
  rcases h with h | h <;> rw [h] <;> decide

theorem Segment.pollSent_of {x : Segment} {p : PollRec} (hp : x.poll = some p) (hs : x.sending.isSome) :
    x.pollSent = { x with sending := none, window := some p.window } := by
  unfold Segment.pollSent
  rw [hp]
  exact if_pos hs

end

/-- Settles O33, event by event. -/
theorem segmentTimers : Obligations.SegmentTimers := by
  intro s g p bytes x
  refine ⟨rfl, fun hp hs => ?_, fun hstate hs hr => ?_, fun h => ?_, fun hr => ?_, fun hf hprobe => ⟨?_, ?_⟩⟩
  · have h : x.pollSent = { x with sending := none, window := some p.window } :=
      Segment.pollSent_of hp (Option.isSome_of_eq_some hs)
    exact congrArg (fun y => Host.Outcome.next (s.setSeg g y)) h
  · exact execSegmentFrameBegin_starts (Segment.listens_of hstate) hs hr
  · refine congrArg Host.Outcome.next (if_neg fun ⟨hl, hs, _⟩ => ?_)
    rcases h with h | h | h
    · exact Segment.not_listens_of (.inl h) hl
    · exact Segment.not_listens_of (.inr h) hl
    · exact absurd hs (Option.isSome_iff_ne_none.mp h)
  · exact congrArg Host.Outcome.next (if_pos hr)
  · exact congrArg Host.Outcome.next (if_pos ⟨hf, hprobe, rfl⟩)
  · exact congrArg Host.Outcome.next (if_neg fun h => by cases h.2.2)

/-! ### RING_A and RING_B (R86, R90, R102) -/

/-- The table of a segment's ring. -/
def ringTable : Seg → TableId
  | .a => .ringA
  | .b => .ringB

theorem parseRing_invalid (en slot next : Byte) : parseRing [0, en, slot, next] = .ok RingEntry.invalid := rfl

theorem parseRing_valid {v : Byte} (h : v ≠ 0) (en slot next : Byte) :
    parseRing [v, en, slot, next] =
      if 15 < slot.toNat then .error .range
      else .ok { valid := true, enabled := en ≠ 0, slot := Fin.ofNat 16 slot.toNat
                 next := if 11 < next.toNat then none else some (Fin.ofNat 12 next.toNat) } := by
  unfold parseRing
  rw [flagAt_of_ne h]
  rfl

/-- The segment after an entry of its ring is written, its records aside (R86, R90). -/
theorem Segment.writeRing_eq (x : Segment) (i : RingIx) (e : RingEntry) :
    x.writeRing i e = { x with
      ring := put x.ring i e, records := (x.writeRing i e).records
      state := if x.state = .idle then .running else x.state
      pointer := if x.state = .idle then x.cfg.head else x.pointer
      headMoved := if x.state = .idle then false else x.headMoved } := by
  unfold Segment.writeRing Segment.endIdle Segment.checkWalk Segment.answer
  by_cases h : x.state = .idle
  · simp only [h, if_true]
  · simp only [h, if_false]

/-- The records that the new ring leaves without a walk slot are answered (R102). -/
theorem Segment.writeRing_queuedAnswered (x : Segment) (i : RingIx) (e : RingEntry) :
    queuedAnswered .notPresent (fun r => r.slot ∉ (x.writeRing i e).walkSlots) x.records (x.writeRing i e).records := by
  have h := (({ x with ring := put x.ring i e } : Segment).endIdle).checkWalk_queuedAnswered
  have hr : (({ x with ring := put x.ring i e } : Segment).endIdle).records = x.records := by
    unfold Segment.endIdle
    split <;> rfl
  rw [hr] at h
  exact h

section
variable {s : State} {g : Seg} {tag : Byte} {i : RingIx} {bs : List Byte}

theorem exec_ringWrite (s : State) (g : Seg) (tag index : Byte) (bs : List Byte) :
    exec (if g = .a then .tblwrRingA tag index bs else .tblwrRingB tag index bs) s =
      .next (s.takeWrite (ringTable g) tag index bs (ownRing g)) := by cases g <;> rfl

theorem ringIndex_lt (g : Seg) (i : RingIx) : (byte i.val).toNat < (ringTable g).count := by
  rw [byte_toNat (by omega)]
  cases g <;> exact i.isLt

theorem State.ringWrite_refused (ht : s.takes) (hp : s.cfs.protects (ringTable g) = false) (hl : bs.length = 4)
    {st : Status} (hparse : parseRing bs = .error st) :
    s.takeWrite (ringTable g) tag (byte i.val) bs (ownRing g) =
      s.answered tag 0x02 st [byte (ringTable g).id, byte i.val] := by
  have hown : ownRing g (byte i.val).toNat bs s.rxHunt = .error st := by
    unfold ownRing
    rw [hparse]
  refine ht.own.trans (State.writeTable_error (s := s.rxHunt) (ringIndex_lt g i) ?_ hp hown)
  rw [hl]
  cases g <;> rfl

theorem State.ringWrite_stored (ht : s.takes) (hp : s.cfs.protects (ringTable g) = false) (hl : bs.length = 4)
    {e : RingEntry} (hparse : parseRing bs = .ok e) :
    s.takeWrite (ringTable g) tag (byte i.val) bs (ownRing g) =
      (s.setSeg g ((s.seg g).writeRing i e)).answered tag 0x02 .ok
        (byte (ringTable g).id :: byte i.val :: e.bytes) := by
  have hn : Fin.ofNat 12 (byte i.val).toNat = i := by rw [byte_toNat (by omega), ofNat_fin]
  have hown : ownRing g (byte i.val).toNat bs s.rxHunt = .ok (s.rxHunt.setSeg g ((s.seg g).writeRing i e)) := by
    unfold ownRing
    rw [hparse]
    dsimp only
    rw [hn, State.modSeg_eq, State.rxHunt_seg]
  have hring : ((s.seg g).writeRing i e).ring[i] = e := by
    rw [Segment.writeRing_eq]
    exact put_get_self ..
  have hb : (s.rxHunt.setSeg g ((s.seg g).writeRing i e)).entryBytes (ringTable g) (byte i.val).toNat = e.bytes := by
    cases g <;> exact (congrArg (fun j : RingIx => (((s.seg _).writeRing i e).ring[j]).bytes) hn).trans
      (congrArg RingEntry.bytes hring)
  rw [State.takeWrite_stored ht hp (ringIndex_lt g i) (by rw [hl]; cases g <;> rfl) hown, hb,
    State.rxHunt_setSeg_reply]

end

/-- Settles O18: the range of a valid entry, then the entry stored and the records checked against the new walk. -/
theorem ringWrite : Obligations.RingWrite := by
  intro s g tag i v en slot next ht _ hprot e id c
  have hp : s.cfs.protects (ringTable g) = false := by cases g <;> exact hprot
  have hid : id = byte (ringTable g).id := by cases g <;> rfl
  have hexec : exec c s = .next (s.takeWrite (ringTable g) tag (byte i.val) [v, en, slot, next] (ownRing g)) :=
    exec_ringWrite ..
  rw [hexec, hid]
  refine ⟨fun hv hs => ?_, fun h => ?_⟩
  · rw [State.ringWrite_refused ht hp rfl ((parseRing_valid hv ..).trans (if_pos hs))]
  · have hparse : parseRing [v, en, slot, next] = .ok e := by
      by_cases hv : v = 0
      · rw [show e = RingEntry.invalid from if_pos hv, hv]
        exact parseRing_invalid en slot next
      · rw [show e = _ from if_neg hv]
        exact (parseRing_valid hv ..).trans (if_neg (Nat.not_lt.mpr (h.resolve_left hv)))
    exact ⟨_, _, (s.seg g).writeRing_eq i e, (s.seg g).writeRing_queuedAnswered i e,
      congrArg Host.Outcome.next (State.ringWrite_stored ht hp rfl hparse)⟩

/-! ### NODEREQ (R97 to R99, R102, R195) -/

section
variable {s : State} {g : Seg} {tag : Byte} {slot : Slot} {body : List Byte}

/-- A NODEREQ of a fitting length reaches its owner (R195). -/
theorem execNodereq_takes (ht : s.takes) (tag b : Byte) (h1 : 1 ≤ body.length) (h8 : body.length ≤ 8) :
    exec (.nodereq tag (b :: body)) s = .next (s.rxHunt.request tag b body) := by
  have hfits : decide (2 ≤ (b :: body).length ∧ (b :: body).length ≤ 9) = true := by
    simp only [List.length_cons, decide_eq_true_eq]
    omega
  show execNodereq tag (b :: body) s = _
  unfold execNodereq
  rw [hfits]
  exact congrArg Host.Outcome.next ht.own

theorem slot_byte_le (slot : Slot) : ¬15 < (byte slot.val).toNat := by
  rw [byte_toNat (by omega)]
  omega

theorem slot_ofNat_byte (slot : Slot) : Fin.ofNat 16 (byte slot.val).toNat = slot := by
  rw [byte_toNat (by omega), ofNat_fin]

theorem State.request_inactive (h : s.slots[slot].state ≠ .active) :
    s.request tag (byte slot.val) body = s.reply tag Kind.nodereq .notPresent [] := by
  unfold State.request
  rw [if_neg (slot_byte_le slot)]
  simp only [slot_ofNat_byte]
  split
  · exact absurd ‹_› h
  · rfl

theorem State.request_active (ha : s.slots[slot].state = .active) (hg : s.slots[slot].lastSeg = some g) :
    s.request tag (byte slot.val) body =
      if 3 ≤ (s.seg g).records.length then s.reply tag Kind.nodereq .busy []
      else s.modSeg g fun x => x.accept tag slot body := by
  unfold State.request
  rw [if_neg (slot_byte_le slot)]
  simp only [slot_ofNat_byte, ha, hg]
  rfl

theorem Segment.requestState_of_refusal {x : Segment} {a : AnswerStatus} (h : x.refusal slot = some a) :
    x.requestState slot = .answered a [] (x.records.countP PassRecord.isAnswered) := by
  unfold Segment.requestState
  rw [h]

theorem Segment.requestState_of_none {x : Segment} (h : x.refusal slot = none) : x.requestState slot = .queued := by
  unfold Segment.requestState
  rw [h]

/-- Outside STOPPED and FAULT the walk slots decide (R99, R102). -/
theorem Segment.refusal_listening {x : Segment} (h : x.state = .idle ∨ x.state = .running) :
    x.refusal slot = if slot ∈ x.walkSlots then none else some .notPresent := by
  unfold Segment.refusal
  rcases h with h | h <;> rw [h]

theorem Segment.refusal_stopped {x : Segment} (h : x.state = .stopped) : x.refusal slot = some .segmentOff := by
  unfold Segment.refusal
  rw [h]

theorem Segment.refusal_fault {x : Segment} (h : x.state = .fault) : x.refusal slot = some .segmentFault := by
  unfold Segment.refusal
  rw [h]

end

/-- Settles O23: the refusals in their order, then the record appended in the state that the segment gives it. -/
theorem nodeRequest : Obligations.NodeRequest := by
  intro s tag b slot g body ht h1 h8 c x appended n
  have hc : exec c s = .next (s.rxHunt.request tag (byte slot.val) body) := execNodereq_takes ht tag _ h1 h8
  refine ⟨fun hb => ?_, fun hs => ?_, fun ha hg => ⟨fun hfull => ?_, fun hroom => ?_⟩⟩
  · rw [execNodereq_takes ht tag b h1 h8, State.request, if_pos hb]
    rfl
  · rw [hc, State.request_inactive (s := s.rxHunt) hs]
    rfl
  · rw [hc, State.request_active (s := s.rxHunt) ha hg, if_pos (by rw [State.rxHunt_seg]; exact hfull)]
    rfl
  · have happ : ∀ st, x.requestState slot = st → exec c s = .next (appended st) := by
      rintro st rfl
      rw [hc, State.request_active (s := s.rxHunt) ha hg,
        if_neg (by rw [State.rxHunt_seg]; exact Nat.not_le.mpr hroom), State.modSeg_eq, State.rxHunt_seg,
        Segment.accept_eq]
      cases g <;> rfl
    refine ⟨fun hst => happ _ ?_, fun hst => happ _ ?_, fun hst => ⟨fun hw => happ _ ?_, fun hw => happ _ ?_⟩⟩
    · exact Segment.requestState_of_refusal (Segment.refusal_stopped hst)
    · exact Segment.requestState_of_refusal (Segment.refusal_fault hst)
    · exact Segment.requestState_of_refusal ((Segment.refusal_listening hst).trans (if_neg hw))
    · exact Segment.requestState_of_none ((Segment.refusal_listening hst).trans (if_pos hw))

/-! ### SEND_COMPLETE (R103, R173, R191, R200) -/

section
variable {s : State}

/-- The record whose NODEANS was sent is the offered one, and the others keep tag, slot and body (R103). -/
theorem Segment.removeOffer_records {x : Segment} {a : PassRecord} {b n : List PassRecord} (ho : x.offer = some a)
    (hr : x.records = b ++ a :: n) (hb : a ∉ b) : x.removeOffer.records = (b ++ n).map PassRecord.moveUp := by
  unfold Segment.offer at ho
  unfold Segment.removeOffer
  generalize (fun r : PassRecord => match r.state with
      | .answered _ _ n => decide (n = 0)
      | _ => false) = p at ho ⊢
  have hp : p a = true := List.find?_some ho
  have hbefore : ∀ q ∈ b, ¬p q = true := fun q hq hpq => by
    obtain ⟨q', hq'⟩ := Option.isSome_iff_exists.mp (List.find?_isSome.mpr ⟨q, hq, hpq⟩)
    rw [hr, List.find?_append, hq'] at ho
    cases ho
    exact hb (List.mem_of_find?_eq_some hq')
  show (x.records.eraseP p).map _ = _
  rw [hr, List.eraseP_append_right _ hbefore, List.eraseP_cons_of_pos hp]

theorem PassRecord.moveUp_kept (r : PassRecord) : (r.moveUp.tag, r.moveUp.slot, r.moveUp.body) = (r.tag, r.slot, r.body) := by
  unfold PassRecord.moveUp
  split <;> rfl

/-- A completion after which nothing waits for the end of the step. -/
theorem execSendComplete_settled (ign door : Bool) {x : Sending} (hs : s.settled) (h : s.tkp.tx = some x) {t : State}
    (hd : s.txIdle.sendDone x.action ign door = t) (h1 : t.toChime = s.toChime) (h2 : t.pmg = s.pmg) :
    exec (.sendComplete ign door) s = .next t := by
  rw [execSendComplete_of ign door h, hd,
    State.settle_of_settled (State.settled_of_eq hs h1 (by rw [h2]) (by rw [h2]))]

theorem State.replySent_plain {kind : Byte} {st : Status} (ign door : Bool)
    (h : st ≠ .ok ∨ (kind ≠ 0x12 ∧ kind ≠ 0x0C)) : s.replySent kind st ign door = s.freeHead := by
  unfold State.replySent
  rcases h with h | ⟨h1, h2⟩
  · exact (if_neg fun c => h c.2.1).trans (if_neg fun c => h c.2)
  · exact (if_neg fun c => h1 c.1).trans (if_neg fun c => h2 c.1)

theorem State.replySent_sleepreq (ign door : Bool) : s.replySent 0x0C .ok ign door = s.freeHead.actSleepReq := by
  unfold State.replySent
  exact (if_neg fun c => absurd c.1 (by decide)).trans (if_pos ⟨rfl, rfl⟩)

/-- Forming the watch set stops the run-down and drops the request whether or not they stand (R172, R173). -/
theorem State.formWatch_runDown (s : State) (m : Option Nat) :
    (s.modPmg fun p => { p with runDown := m, sleepReq := false }).formWatch =
      (s.modPmg fun p => { p with sleepReq := false }).formWatch := by
  unfold State.formWatch
  rw [show (s.modPmg fun p => { p with runDown := m, sleepReq := false }).watchCandidates = s.watchCandidates from rfl,
    show (s.modPmg fun p => { p with sleepReq := false }).watchCandidates = s.watchCandidates from rfl]
  split <;> rfl

/-- The formed watch set leaves nothing to the end of the step (R174). -/
theorem State.formWatch_settled (h : s.toChime = []) : s.formWatch.settled := by
  unfold State.formWatch
  split
  · exact ⟨h, fun e => by cases e⟩
  · rename_i hne
    exact ⟨h, fun _ => hne⟩

end

/-- Settles O31, by what is being sent. -/
theorem sendCompletes : Obligations.SendCompletes := by
  intro s ign door f hs act
  refine ⟨fun h => ?_, fun k st h hk => ?_, fun g h => ?_, fun h => ?_, fun h hno => ?_, fun h hreq hrun hign hdown => ?_⟩
  · exact execSendComplete_settled ign door hs h rfl rfl rfl
  · exact execSendComplete_settled ign door hs h (State.replySent_plain ign door hk) rfl rfl
  · refine ⟨(s.seg g).removeOffer.records, ?_, fun a b n ho hr hb => ?_⟩
    · refine execSendComplete_settled ign door hs h ?_ (State.setSeg_toChime ..) (State.setSeg_pmg ..)
      cases g <;> rfl
    · rw [Segment.removeOffer_records ho hr hb, List.map_map]
      exact List.map_congr_left fun r _ => r.moveUp_kept
  · exact execSendComplete_settled ign door hs h rfl rfl rfl
  · have hact : s.txIdle.freeHead.actSleepReq = s.txIdle.freeHead := by
      refine if_neg fun ⟨h1, h2, h3⟩ => ?_
      rcases hno with e | e | e
      · exact absurd (e.symm.trans h1) (by decide)
      · exact e h2
      · exact absurd (e.symm.trans h3) (by decide)
    exact execSendComplete_settled ign door hs h ((State.replySent_sleepreq ign door).trans hact) rfl rfl
  · have hact : s.txIdle.freeHead.actSleepReq =
        (s.txIdle.freeHead.modPmg fun m => { m with sleepReq := false }).formWatch := if_pos ⟨hreq, hrun, hign⟩
    have hdone : s.txIdle.sendDone (.reply 0x0C .ok) ign door = _ := (State.replySent_sleepreq ign door).trans hact
    have hexp : ∀ u : State, u.pmg.power = .run → u.pmg.runDown.isSome →
        exec .rundownExpiry u = .next (u.modPmg fun m => { m with runDown := none, sleepReq := false }).formWatch :=
      fun u h1 h2 => congrArg Host.Outcome.next (if_pos ⟨h1, h2⟩)
    rw [execSendComplete_of ign door h, hdone, hexp _ (by exact hrun) (by exact hdown), State.formWatch_runDown,
      State.settle_of_settled (State.formWatch_settled (by exact hs.1))]
    rfl

end Sys2Proof.Machine
end

section
/-! SUPPORT. Poll starts: the walk in RUN, entry by entry, and the visits of a watch pass. -/

namespace Sys2Proof.Machine

/-! ### The walk in RUN (R89, R90) -/

section
variable {x : Segment} {e : RingIx}

/-- The walk skips the entries before the first pollable one and polls it (R89). -/
theorem Segment.findPoll_found {k n : Nat} (hk : k < n) (hno : ∀ j < k, x.ring[x.advance^[j] e].pollable = false)
    (hp : x.ring[x.advance^[k] e].pollable = true) :
    x.findPoll n e = (some (x.advance^[k] e), x.advance^[k + 1] e) := by
  induction n generalizing k e with
  | zero => cases hk
  | succ n ih =>
    unfold Segment.findPoll
    cases k with
    | zero => exact if_pos hp
    | succ k =>
      have h0 : ¬x.ring[e].pollable = true := Bool.eq_false_iff.mp (hno 0 (Nat.succ_pos k))
      rw [if_neg h0]
      exact ih (Nat.lt_of_succ_lt_succ hk) (fun j hj => hno (j + 1) (Nat.succ_lt_succ hj)) hp

/-- With no pollable entry among those the walk visits, it skips them all (R90). -/
theorem Segment.findPoll_none {n : Nat} (hno : ∀ j < n, x.ring[x.advance^[j] e].pollable = false) :
    x.findPoll n e = (none, x.advance^[n] e) := by
  induction n generalizing e with
  | zero => rfl
  | succ n ih =>
    unfold Segment.findPoll
    have h0 : ¬x.ring[e].pollable = true := Bool.eq_false_iff.mp (hno 0 (Nat.succ_pos n))
    rw [if_neg h0]
    exact ih fun j hj => hno (j + 1) (Nat.succ_lt_succ hj)

theorem RingEntry.pollable_iff {r : RingEntry} : r.pollable = true ↔ r.valid = true ∧ r.enabled = true :=
  Bool.and_eq_true_iff

theorem Segment.walkStart_kept (hm : x.headMoved = false) (hp : x.pointer ∈ x.walkSet) : x.walkStart = x.pointer := by
  unfold Segment.walkStart
  rw [hm, if_neg (by decide), if_pos hp]

theorem Segment.walkStart_head (h : x.headMoved = true ∨ x.pointer ∉ x.walkSet) : x.walkStart = x.cfg.head := by
  unfold Segment.walkStart
  by_cases hm : x.headMoved = true
  · exact if_pos hm
  · rw [if_neg hm, if_neg (h.resolve_left hm)]

/-- The walk starts in the same place with the pointer put at head beforehand (R85, R89). -/
theorem Segment.pollInRun_head (h : x.headMoved = true ∨ x.pointer ∉ x.walkSet) :
    x.pollInRun = ({ x with pointer := x.cfg.head, headMoved := false } : Segment).pollInRun := by
  have h1 : ({ x with pointer := x.cfg.head, headMoved := false } : Segment).walkStart = x.walkStart := by
    rw [Segment.walkStart_head h]
    exact Segment.walkStart_kept rfl (Segment.head_mem_walkSet x)
  have h2 : ∀ n i, ({ x with pointer := x.cfg.head, headMoved := false } : Segment).findPoll n i = x.findPoll n i := by
    intro n
    induction n with
    | zero => exact fun _ => rfl
    | succ n ih =>
      intro i
      unfold Segment.findPoll
      rw [ih]
      rfl
  unfold Segment.pollInRun
  rw [h1, h2]

theorem Segment.pollInRun_idle {k : RingIx} (h : x.findPoll 12 x.walkStart = (none, k)) :
    x.pollInRun = { x with state := .idle, pointer := k, headMoved := false } := by
  unfold Segment.pollInRun
  rw [h]

theorem Segment.pollInRun_polls {i k : RingIx} (h : x.findPoll 12 x.walkStart = (some i, k)) :
    x.pollInRun = ({ x with pointer := k, headMoved := false } : Segment).startPoll i := by
  unfold Segment.pollInRun
  rw [h]

/-! ### The attached record (R100) -/

theorem Segment.toAttach_none {slot : Slot} (h : ∀ q ∈ x.records, ¬(q.state = .queued ∧ q.slot = slot)) :
    x.toAttach slot = none :=
  List.find?_eq_none.mpr fun q hq c => h q hq (by simpa using c)

theorem Segment.toAttach_some {slot : Slot} {a b : List PassRecord} {r : PassRecord} (hr : x.records = a ++ r :: b)
    (ha : ∀ q ∈ a, ¬(q.state = .queued ∧ q.slot = slot)) (hw : r.state = .queued ∧ r.slot = slot) :
    x.toAttach slot = some r := by
  unfold Segment.toAttach
  rw [hr, List.find?_append, List.find?_eq_none.mpr fun q hq c => ha q hq (by simpa using c), Option.none_or,
    List.find?_cons_of_pos (by simpa using hw)]

/-- A poll start by the record it attaches (R91, R100). -/
theorem Segment.startPoll_of {att : Option PassRecord} {rs : List PassRecord} (h : x.toAttach x.ring[e].slot = att)
    (hr : attach x.ring[e].slot x.records = rs) :
    x.startPoll e = { x with
      poll := some { slot := x.ring[e].slot, entry := e, tag := att.map (·.tag), window := x.cfg.replyWindow }
      sending := some (pollBytes x.ring[e].slot ((att.map (·.body)).getD [])), spacing := some x.cfg.pollInterval
      window := none, records := rs
      reception := if x.reception = .receiving then .none else x.reception } := by
  subst h hr
  rfl

end

/-! ### POLL_START (R88) -/

section
variable {s : State} {g : Seg}

theorem execPollStart_ready (h : (s.seg g).state = .running) (hp : (s.seg g).poll = none) (hs : (s.seg g).spacing = none) :
    exec (.pollStart g) s = .next (s.pollStart g) :=
  congrArg Host.Outcome.next (if_pos (Segment.ready_iff.mpr ⟨h, hp, hs⟩))

theorem execPollStart_not_ready (h : (s.seg g).state ≠ .running ∨ (s.seg g).poll.isSome ∨ (s.seg g).spacing.isSome) :
    exec (.pollStart g) s = .next s := by
  refine congrArg Host.Outcome.next (if_neg fun hr => ?_)
  obtain ⟨h1, h2, h3⟩ := Segment.ready_iff.mp hr
  rw [h2, h3] at h
  rcases h with h | h | h
  · exact h h1
  · cases h
  · cases h

theorem State.pollStart_run (hp : s.pmg.power = .run) : s.pollStart g = s.setSeg g (s.seg g).pollInRun := by
  unfold State.pollStart
  rw [hp]
  rfl

theorem State.pollStart_watch {w : WatchPass} (hp : s.pmg.power = .parkWatch) (hw : (s.seg g).pass = some w) :
    s.pollStart g = s.setSeg g ((s.seg g).pollInPass s.watchedSlot w) := by
  unfold State.pollStart
  rw [hp, hw]
  rfl

theorem State.pollStart_watch_none (hp : s.pmg.power = .parkWatch) (hw : (s.seg g).pass = none) : s.pollStart g = s := by
  unfold State.pollStart
  rw [hp, hw]

end

/-- Settles O34: the place of the first pollable entry in the walk, then the attached record; the walk's begin. -/
theorem pollStart : Obligations.PollStart := by
  have hexec : ∀ (s : State) (g : Seg), s.pmg.power = .run → (s.seg g).state = .running → (s.seg g).poll = none →
      (s.seg g).spacing = none → exec (.pollStart g) s = .next (s.setSeg g (s.seg g).pollInRun) :=
    fun s g hpow hst hpoll hsp => by rw [execPollStart_ready hst hpoll hsp, State.pollStart_run hpow]
  constructor
  · intro s g a b r x after visit pollable hpow hst hpoll hsp hm hptr
    have hafter : x.advance = after := by
      funext i
      show (follow x.ring i).getD x.cfg.head = _
      unfold follow
      dsimp only [after]
      cases x.ring[i].next with
      | none => rfl
      | some n =>
        dsimp only
        split <;> rfl
    have hvisit : ∀ j, x.advance^[j] x.pointer = visit j := fun j => by rw [hafter]
    have hno : ∀ {n : Nat}, (∀ j < n, ¬pollable (visit j)) →
        ∀ j < n, x.ring[x.advance^[j] x.pointer].pollable = false := fun h j hj =>
      Bool.eq_false_iff.mpr (mt RingEntry.pollable_iff.mp (by simp only [hvisit]; exact h j hj))
    have hstart : x.walkStart = x.pointer := Segment.walkStart_kept hm hptr
    rw [hexec s g hpow hst hpoll hsp]
    refine ⟨?_, fun hnone => ?_⟩
    · intro k hk hnone hpk slot waits polled
      have hfind : x.findPoll 12 x.walkStart = (some (visit k), visit (k + 1)) := by
        have hpk' : x.ring[x.advance^[k] x.pointer].pollable = true :=
          RingEntry.pollable_iff.mpr (by simp only [hvisit]; exact hpk)
        rw [hstart, Segment.findPoll_found hk (hno hnone) hpk', hvisit, hvisit]
      have hpolls : x.pollInRun = _ := Segment.pollInRun_polls hfind
      rw [hpolls]
      refine ⟨fun h => ?_, fun hr ha hw => ?_⟩
      · exact congrArg (fun y => Host.Outcome.next (s.setSeg g y))
          (Segment.startPoll_of (x := { x with pointer := visit (k + 1), headMoved := false }) (Segment.toAttach_none h)
            (attach_none h))
      · refine congrArg (fun y => Host.Outcome.next (s.setSeg g y))
          (Segment.startPoll_of (x := { x with pointer := visit (k + 1), headMoved := false })
            (Segment.toAttach_some hr ha hw) ?_)
        exact (congrArg (attach slot) hr).trans (attach_split ha hw)
    · have hidle : x.pollInRun = _ := Segment.pollInRun_idle (k := visit 12)
        (by rw [hstart, Segment.findPoll_none (hno hnone), hvisit])
      rw [hidle]
  · intro s g x
    refine ⟨fun hpow hst hpoll hsp => ?_, execPollStart_not_ready⟩
    rw [hexec s g hpow hst hpoll hsp]
    refine ⟨fun h => ?_, fun h => ?_⟩
    · have hhead : x.pollInRun = _ := Segment.pollInRun_head h
      rw [hhead, hexec (s.setSeg g _) g (by rw [State.setSeg_pmg]; exact hpow) (by rw [State.setSeg_seg]; exact hst)
        (by rw [State.setSeg_seg]; exact hpoll) (by rw [State.setSeg_seg]; exact hsp), State.setSeg_setSeg,
        State.setSeg_seg]
    · have hidle : x.pollInRun = _ := Segment.pollInRun_idle (Segment.findPoll_none fun j _ => h _)
      exact ⟨_, congrArg (fun y => Host.Outcome.next (s.setSeg g y)) hidle⟩

/-! ### The visits of a watch pass (R104) -/

section
variable {ring : Vector RingEntry 12} {polls : RingIx → Bool} {k : Nat} {e : RingIx} {seen : List RingIx}

/-- A pass with no entry left to visit ends. -/
theorem passVisit_ended {next : Option RingIx} (h : ∀ e, next = some e → e ∈ seen) :
    passVisit ring polls k next seen = (none, none, seen) := by
  cases k with
  | zero => rfl
  | succ k =>
    cases next with
    | none => rfl
    | some e => exact if_pos (h e rfl)

theorem passVisit_polls (he : e ∉ seen) (hp : polls e = true) :
    passVisit ring polls (k + 1) (some e) seen =
      (some e, (follow ring e).filter fun n => n ∉ seen ++ [e], seen ++ [e]) :=
  (if_neg he).trans (if_pos hp)

theorem passVisit_passes (he : e ∉ seen) (hp : ¬polls e = true) :
    passVisit ring polls (k + 1) (some e) seen = passVisit ring polls k (follow ring e) (seen ++ [e]) :=
  (if_neg he).trans (if_neg hp)

/-- The entry that a pass polls is one its test takes and that it has not visited. -/
theorem passVisit_found {next : Option RingIx} (h : (passVisit ring polls k next seen).1 = some e) :
    polls e = true ∧ e ∉ seen := by
  induction k generalizing next seen with
  | zero => cases h
  | succ k ih =>
    cases next with
    | none => cases h
    | some i =>
      by_cases hi : i ∈ seen
      · rw [passVisit_ended fun e he => Option.some.inj he ▸ hi] at h
        cases h
      by_cases hp : polls i = true
      · rw [passVisit_polls hi hp] at h
        cases h
        exact ⟨hp, hi⟩
      · rw [passVisit_passes hi hp] at h
        exact (ih h).imp_right fun hn hs => hn (List.mem_append_left _ hs)

end

section
variable {x : Segment} {watched : Slot → Bool} {w : WatchPass} {e : RingIx}

/-- A pass that finds no entry is over (R104). -/
theorem Segment.pollInPass_over (h : (passVisit x.ring (x.pollsInPass watched) 12 w.next w.visited).1 = none) :
    ∃ k : RingIx, x.pollInPass watched w =
      { x with pointer := k, pass := none, state := if w.polled then .running else .idle } := by
  unfold Segment.pollInPass
  dsimp only
  rw [h]
  exact ⟨_, rfl⟩

/-- A pass that finds an entry polls it and goes on from there (R104). -/
theorem Segment.pollInPass_polls {n : Option RingIx} {seen : List RingIx}
    (h : passVisit x.ring (x.pollsInPass watched) 12 w.next w.visited = (some e, n, seen)) :
    (∃ tag window, (x.pollInPass watched w).poll =
      some { slot := x.ring[e].slot, entry := e, tag := tag, window := window }) ∧
      (x.pollInPass watched w).pass = some { next := n, visited := seen, polled := true } := by
  unfold Segment.pollInPass
  rw [h]
  exact ⟨⟨_, _, rfl⟩, rfl⟩

theorem Segment.pollInPass_cases (x : Segment) (watched : Slot → Bool) (w : WatchPass) :
    (∃ e n seen, passVisit x.ring (x.pollsInPass watched) 12 w.next w.visited = (some e, n, seen)) ∨
      ∃ k : RingIx, x.pollInPass watched w =
        { x with pointer := k, pass := none, state := if w.polled then .running else .idle } := by
  rcases hv : passVisit x.ring (x.pollsInPass watched) 12 w.next w.visited with ⟨_ | e, n, seen⟩
  · exact .inr (Segment.pollInPass_over (congrArg Prod.fst hv))
  · exact .inl ⟨e, n, seen, rfl⟩

/-- An entry that the pass does not poll counts as visited, and the pass goes on by its next (R87, R104). -/
theorem Segment.pollInPass_passes (hn : w.next = some e) (he : e ∉ w.visited) (hp : ¬x.pollsInPass watched e = true) :
    x.pollInPass watched w = ({ x with
      pass := some { next := follow x.ring e, visited := w.visited ++ [e], polled := w.polled } } : Segment).pollInPass
        watched { next := follow x.ring e, visited := w.visited ++ [e], polled := w.polled } := by
  have hcard : (Finset.univ \ (w.visited ++ [e]).toFinset).card ≤ 11 := by
    have hlt : (Finset.univ \ (w.visited ++ [e]).toFinset).card < (Finset.univ : Finset RingIx).card :=
      Finset.card_lt_card (Finset.ssubset_iff_of_subset Finset.sdiff_subset |>.mpr ⟨e, Finset.mem_univ e, by simp⟩)
    rw [Finset.card_fin] at hlt
    exact Nat.le_of_lt_succ hlt
  have hvisit : passVisit x.ring (x.pollsInPass watched) 12 w.next w.visited =
      passVisit x.ring (x.pollsInPass watched) 12 (follow x.ring e) (w.visited ++ [e]) := by
    rw [hn, passVisit_passes he hp, passVisit_fuel hcard]
  unfold Segment.pollInPass
  rw [hvisit]
  dsimp only
  generalize hv : passVisit x.ring (x.pollsInPass watched) 12 (follow x.ring e) (w.visited ++ [e]) = v
  have hv' : passVisit x.ring (({ x with
      pass := some { next := follow x.ring e, visited := w.visited ++ [e], polled := w.polled } } : Segment).pollsInPass
        watched) 12 (follow x.ring e) (w.visited ++ [e]) = v := hv
  rw [hv']
  split <;> rfl

end

/-- A position is fed by a slot when it is seated and its source names the slot (R4). -/
theorem Position.fedBy_iff {r : Position} {slot : Slot} :
    r.fedBy slot = true ↔ r.presence ≠ .noSeat ∧ ∃ ix : SeatIx, r.source = some (.seat slot ix) := by
  unfold Position.fedBy
  rw [Bool.and_eq_true_iff, decide_eq_true_iff]
  refine and_congr_right fun _ => ?_
  split
  · rename_i i ix h
    rw [h, decide_eq_true_iff]
    exact ⟨fun e => ⟨ix, by rw [e]⟩, fun ⟨_, e⟩ => by cases e; rfl⟩
  · rename_i h
    exact ⟨fun e => absurd e Bool.false_ne_true, fun ⟨ix, e⟩ => absurd e (h slot ix)⟩

theorem State.watchedSlot_iff {s : State} {slot : Slot} : s.watchedSlot slot = true ↔
    ∃ p ∈ s.pmg.watchSet, ∃ ix : SeatIx,
      s.positions[p].presence ≠ .noSeat ∧ s.positions[p].source = some (.seat slot ix) := by
  unfold State.watchedSlot
  rw [List.any_eq_true]
  refine exists_congr fun p => and_congr_right fun _ => ?_
  rw [Position.fedBy_iff]
  exact ⟨fun ⟨h, ix, e⟩ => ⟨ix, h, e⟩, fun ⟨ix, h, e⟩ => ⟨h, ix, e⟩⟩

theorem State.setSeg_watchedSlot (s : State) (g : Seg) (y : Segment) : (s.setSeg g y).watchedSlot = s.watchedSlot := by
  cases g <;> rfl

/-- Settles O35, by what the pass finds from the entry it visits next. -/
theorem watchPassPolls : Obligations.WatchPassPolls := by
  intro s g x watched eligible after hpow hst hpoll hsp
  have heligible : ∀ i, x.pollsInPass s.watchedSlot i = true ↔ eligible i := fun i => by
    unfold Segment.pollsInPass
    rw [Bool.and_eq_true_iff, Bool.and_eq_true_iff, RingEntry.pollable_iff, State.watchedSlot_iff, decide_eq_true_iff,
      and_assoc, and_assoc]
  have hafter : ∀ i, follow x.ring i = after i := fun i => by
    unfold follow
    dsimp only [after]
    cases x.ring[i].next with
    | none => rfl
    | some n => simp only [Option.filter_some]
  have hexec : ∀ (v : State) (w : Machine.WatchPass), v.pmg.power = .parkWatch → (v.seg g).state = .running →
      (v.seg g).poll = none → (v.seg g).spacing = none → (v.seg g).pass = some w →
      exec (.pollStart g) v = .next (v.setSeg g ((v.seg g).pollInPass v.watchedSlot w)) := fun v w h1 h2 h3 h4 h5 => by
    rw [execPollStart_ready h2 h3 h4, State.pollStart_watch h1 h5]
  refine ⟨fun hnone => ?_, fun w hw => ?_, fun hw => ⟨fun hno => ?_, fun hhead => ?_⟩⟩
  · rw [execPollStart_ready hst hpoll hsp, State.pollStart_watch_none hpow hnone]
  · have hrun : exec (.pollStart g) s = .next (s.setSeg g (x.pollInPass s.watchedSlot w)) :=
      hexec s w hpow hst hpoll hsp hw
    rw [hrun]
    refine ⟨_, rfl, ?_⟩
    rw [State.setSeg_seg]
    refine ⟨rfl, fun q hq => ?_, fun hq => ?_, fun hall => ?_, fun e hn he => ⟨fun hel => ?_, fun hel => ?_⟩⟩
    · rcases x.pollInPass_cases s.watchedSlot w with ⟨i, n, seen, hv⟩ | ⟨k, hk⟩
      · obtain ⟨⟨tag, window, hp⟩, -⟩ := Segment.pollInPass_polls hv
        rw [hq] at hp
        cases hp
        obtain ⟨htest, hseen⟩ := passVisit_found (congrArg Prod.fst hv)
        have hel := (heligible i).mp htest
        exact ⟨hel.2.2.1, hel, rfl, hseen⟩
      · rw [hk] at hq
        exact absurd (hpoll.symm.trans hq) (by simp)
    · rcases x.pollInPass_cases s.watchedSlot w with ⟨i, n, seen, hv⟩ | ⟨k, hk⟩
      · obtain ⟨⟨tag, window, hp⟩, -⟩ := Segment.pollInPass_polls hv
        rw [hp] at hq
        cases hq
      · rw [hk]
        exact ⟨rfl, rfl⟩
    · obtain ⟨k, hk⟩ := Segment.pollInPass_over (x := x) (watched := s.watchedSlot) (w := w)
        (congrArg Prod.fst (passVisit_ended hall))
      rw [hk]
      exact hpoll
    · have hv : passVisit x.ring (x.pollsInPass s.watchedSlot) 12 w.next w.visited = _ :=
        (congrArg (fun o => passVisit x.ring (x.pollsInPass s.watchedSlot) 12 o w.visited) hn).trans
          (passVisit_polls he ((heligible e).mpr hel))
      obtain ⟨⟨tag, window, hp⟩, hpass⟩ := Segment.pollInPass_polls hv
      rw [hp, hpass, hafter]
      exact ⟨rfl, rfl⟩
    · have hpasses := Segment.pollInPass_passes hn he (mt (heligible e).mp hel)
      rw [hafter] at hpasses
      rw [hpasses, hexec (s.setSeg g _) _ (by rw [State.setSeg_pmg]; exact hpow) (by rw [State.setSeg_seg]; exact hst)
        (by rw [State.setSeg_seg]; exact hpoll) (by rw [State.setSeg_seg]; exact hsp) (by rw [State.setSeg_seg]),
        State.setSeg_setSeg, State.setSeg_seg, State.setSeg_watchedSlot]
  · rw [hexec s _ hpow hst hpoll hsp hw]
    rcases x.pollInPass_cases s.watchedSlot { next := some x.cfg.head, visited := [], polled := false } with
      ⟨i, n, seen, hv⟩ | ⟨k, hk⟩
    · have hel := (heligible i).mp (passVisit_found (congrArg Prod.fst hv)).1
      exact absurd hel.2.2.1 (hno _)
    · exact ⟨k, congrArg (fun y => Host.Outcome.next (s.setSeg g y)) hk⟩
  · have hv : passVisit x.ring (x.pollsInPass s.watchedSlot) 12 (some x.cfg.head) [] = _ :=
      passVisit_polls List.not_mem_nil ((heligible _).mpr hhead)
    obtain ⟨⟨tag, window, hp⟩, hpass⟩ := Segment.pollInPass_polls
      (w := { next := some x.cfg.head, visited := [], polled := false }) hv
    have hseg := State.setSeg_seg s g
      (x.pollInPass s.watchedSlot { next := some x.cfg.head, visited := [], polled := false })
    exact ⟨_, _, hexec s _ hpow hst hpoll hsp hw, by rw [hseg, hp]; rfl, by rw [hseg]; exact hpass, rfl, rfl,
      by rw [hseg]⟩

end Sys2Proof.Machine
end

section
/-! SUPPORT. A good REPORT at a slot: what UTR makes of the slot, of its records, of the positions and of the trunk
port. -/

namespace Sys2Proof.Machine

/-! ### Slot records -/

/-- Event kinds added to a slot's record, its notice owed where there is one (R113). -/
def SlotRec.flag (r : SlotRec) (e : BitVec 8) : SlotRec := { r with events := r.events ||| e, owed := r.owed || e ≠ 0 }

theorem SlotRec.flag_flag (r : SlotRec) (a b : BitVec 8) : (r.flag a).flag b = r.flag (a ||| b) := by
  unfold SlotRec.flag
  have h : (decide (a ≠ 0) || decide (b ≠ 0)) = decide (a ||| b ≠ 0) := by
    rw [← Bool.decide_or]
    have hz : a ||| b = 0#8 ↔ a = 0#8 ∧ b = 0#8 := BitVec.or_eq_zero_iff
    exact decide_eq_decide.mpr (not_and_or.symm.trans (not_congr hz.symm))
  simp only [BitVec.or_assoc, Bool.or_assoc, h]

theorem SlotRec.flag_zero (r : SlotRec) : r.flag 0 = r := by
  unfold SlotRec.flag
  simp

theorem SlotRec.addEvent_eq (r : SlotRec) (e : SlotEvent) : r.addEvent e = r.flag (BitVec.ofNat 8 (2 ^ e.bit)) := by
  have h : decide (BitVec.ofNat 8 (2 ^ e.bit) ≠ 0) = true := by cases e <;> decide
  unfold SlotRec.addEvent SlotRec.flag
  rw [h, Bool.or_true]

/-- The record of a slot made REFUSED (R116, R117). -/
def SlotRec.refused (old : SlotRec) (g : Seg) (r : Report) (e : BitVec 8) : SlotRec :=
  { old with
    state := .refused, serial := some r.serial, lastSeg := some g, lastSeq := none, miss := 0, lost := 0
    events := old.events ||| e, owed := true }

/-- A different serial reaches a slot that is not EMPTY (R116). -/
abbrev SlotRec.swapped (old : SlotRec) (r : Report) : Prop := old.state ≠ .empty ∧ old.serial ≠ some r.serial

/-- The event kind of an accepted REPORT by the state of its slot before (R116 to R118). -/
def SlotRec.admission (old : SlotRec) (r : Report) : BitVec 8 :=
  if old.swapped r then 0x21 else if old.state = .active then 0 else if old.state = .lost then 8 else 1

/-- The record of a slot whose REPORT is accepted, before the dispatch (R116 to R119). -/
def SlotRec.admitted (old : SlotRec) (g : Seg) (r : Report) : SlotRec :=
  SlotRec.flag { old with
    state := .active, serial := some r.serial, lastSeg := some g, lastSeq := some r.seq, miss := 0
    lost := if old.swapped r ∨ old.state = .lost then 0 else old.lost } (old.admission r)

/-! ### The slot's record and its pass-through records (R102) -/

/-- The QUEUED records of a slot answered NOT_PRESENT where a test says so. -/
def Segment.dropIf (x : Segment) (c : Bool) (i : Slot) : Segment := if c then x.dropSlot i else x

theorem Segment.dropSlot_dropSlot (x : Segment) (i : Slot) : (x.dropSlot i).dropSlot i = x.dropSlot i := by
  refine Segment.answer_none fun q hq => ?_
  by_cases h : q.slot = i
  · simp [Segment.dropSlot_not_queued hq h]
  · simp [h]

theorem Segment.dropIf_dropSlot (x : Segment) (c : Bool) (i : Slot) : (x.dropIf c i).dropSlot i = x.dropSlot i := by
  cases c
  exacts [rfl, x.dropSlot_dropSlot i]

/-- The records of a segment after the slot's QUEUED ones are answered where a test says so (R102). -/
theorem Segment.dropIf_records (x : Segment) (c : Bool) (i : Slot) :
    List.Forall₂ (fun q q' : PassRecord => if q.state = .queued ∧ q.slot = i ∧ c = true then
      ∃ n, q' = { q with state := .answered .notPresent [] n } else q' = q) x.records (x.dropIf c i).records := by
  cases c with
  | false => exact List.forall₂_same.mpr fun q _ => by rw [if_neg fun h => absurd h.2.2 (by decide)]
  | true =>
    refine (answerAll_forall _ .notPresent [] _ x.records).imp fun q q' h => ?_
    simpa only [Bool.and_eq_true, decide_eq_true_eq, and_true] using h

section
variable (s : State) (g : Seg) (i : Slot) (d : Seg → Bool) (r : SlotRec)

/-- Slot `i` with another record, and its QUEUED records answered on the segments that `d` names. -/
def State.reported : State :=
  { s with sga := s.sga.dropIf (d .a) i, sgb := s.sgb.dropIf (d .b) i, slots := put s.slots i r }

theorem State.reported_seg (k : Seg) : (s.reported i d r).seg k = (s.seg k).dropIf (d k) i := by cases k <;> rfl

theorem State.reported_slot : (s.reported i d r).slots[i] = r := put_get_self ..

theorem State.reported_setSlot (r' : SlotRec) : (s.reported i d r).setSlot i r' = s.reported i d r' :=
  congrArg (fun v => { s.reported i d r with slots := v }) (put_put ..)

theorem State.reported_self : s.reported i (fun _ => false) s.slots[i] = s :=
  congrArg (fun v => { s with slots := v }) (put_own ..)

theorem State.reported_dropRecords :
    (s.reported i d r).dropRecords i = s.reported i (fun k => d k || decide (r.lastSeg = some k)) r := by
  unfold State.dropRecords
  rw [State.reported_slot]
  cases h : r.lastSeg with
  | none =>
    simp only [reduceCtorEq, decide_false, Bool.or_false]
  | some k =>
    dsimp only
    rw [State.modSeg_eq, State.reported_seg, Segment.dropIf_dropSlot]
    cases k <;> simp [State.reported, State.setSeg, State.seg, Segment.dropIf]

theorem State.dropRecords_eq_reported :
    s.dropRecords i = s.reported i (fun k => decide (s.slots[i].lastSeg = some k)) s.slots[i] := by
  have h := s.reported_dropRecords i (fun _ => false) s.slots[i]
  rw [State.reported_self] at h
  simpa only [Bool.false_or] using h

/-- The last segment changes: the records of the slot on the other one are answered (R117, R128). -/
theorem State.hearOn_eq :
    s.hearOn g i = s.reported i (fun k => decide (s.slots[i].lastSeg = some k ∧ k ≠ g))
      { s.slots[i] with lastSeg := some g } := by
  have hd : (if s.slots[i].lastSeg = some g then s else s.dropRecords i) =
      s.reported i (fun k => decide (s.slots[i].lastSeg = some k ∧ k ≠ g)) s.slots[i] := by
    split
    · rename_i h
      have hf : (fun k => decide (s.slots[i].lastSeg = some k ∧ k ≠ g)) = fun _ => false :=
        funext fun k => decide_eq_false fun c => c.2 (Option.some.inj (c.1.symm.trans h))
      rw [hf, State.reported_self]
    · rename_i h
      rw [State.dropRecords_eq_reported]
      congr 1
      exact funext fun k => decide_eq_decide.mpr ⟨fun c => ⟨c, fun e => h (e ▸ c)⟩, And.left⟩
  unfold State.hearOn
  dsimp only
  rw [hd, State.reported_slot, State.reported_setSlot]

/-- What UTR leaves of a state: slot `i` with record `r`, its QUEUED records answered on the segments of `d`, the
positions it fed cleared where `c` says so, and nothing else. -/
structure State.Reported (c : Prop) [Decidable c] (t : State) : Prop where
  around : t.around = (s.reported i d r).around
  view : ∀ q, t.view q = if c ∧ s.positions[q].fedBy i = true then (s.view q).cleared q else s.view q

end

section
variable {s t : State} {g : Seg} {i : Slot} {d : Seg → Bool} {r : SlotRec} {c : Prop} [Decidable c]

theorem State.Reported.of_eq (h : t = s.reported i d r) (hc : ¬c) : s.Reported i d r c t := by
  subst h
  exact ⟨rfl, fun q => by rw [if_neg fun h => hc h.1]; rfl⟩

/-- Clearing what the slot feeds (R4). -/
theorem State.Reported.clearFedBy (hc : c) : s.Reported i d r c ((s.reported i d r).clearFedBy i) := by
  obtain ⟨h1, h2, -⟩ := (s.reported i d r).clearFedBy_spec i
  refine ⟨h1, fun q => (h2 q).trans ?_⟩
  simp only [hc, true_and]
  rfl

theorem State.Reported.slots (h : s.Reported i d r c t) : t.slots = put s.slots i r := (congrArg State.slots h.around :)

theorem State.Reported.slot (h : s.Reported i d r c t) : t.slots[i] = r := by
  simp only [h.slots]
  exact put_get_self ..

theorem State.Reported.seg (h : s.Reported i d r c t) (k : Seg) : t.seg k = (s.seg k).dropIf (d k) i :=
  (State.seg_of_around h.around k).trans (s.reported_seg i d r k)

theorem State.Reported.setSlot (h : s.Reported i d r c t) (r' : SlotRec) : s.Reported i d r' c (t.setSlot i r') := by
  refine ⟨?_, h.view⟩
  rw [← State.reported_setSlot s i d r r']
  have hs : t.slots = (s.reported i d r).slots := h.slots
  have ha : (t.setSlot i r').around = ({ t with slots := put (s.reported i d r).slots i r' } : State).around := by
    rw [← hs]
    rfl
  exact ha.trans (congrArg (fun u : State => { u with slots := put (s.reported i d r).slots i r' }) h.around)

theorem State.Reported.positions (h : s.Reported i d r c t) (q : Pos) :
    t.positions[q] = if c ∧ s.positions[q].fedBy i = true then Position.reset else s.positions[q] := by
  have hv := congrArg PosView.record (h.view q)
  rw [apply_ite PosView.record] at hv
  exact hv

/-- The DETACH lever (R115). -/
theorem State.detach_reported (hc : c) :
    s.Reported i (fun k => decide (s.slots[i].lastSeg = some k)) s.slots[i].dropped c (s.detach i) := by
  unfold State.detach
  rw [State.dropRecords_eq_reported]
  have h := State.Reported.clearFedBy (s := s) (i := i) (d := fun k => decide (s.slots[i].lastSeg = some k))
    (r := s.slots[i]) hc
  dsimp only
  rw [h.slot]
  exact h.setSlot _

/-- The old unit's record ends (R116). -/
theorem State.swapOut_reported (hc : c) :
    s.Reported i (fun k => decide (s.slots[i].lastSeg = some k))
      (SlotRec.flag { s.slots[i] with lastSeq := none, miss := 0, lost := 0 } 0x20) c (s.swapOut i) := by
  unfold State.swapOut
  rw [State.dropRecords_eq_reported]
  have h := State.Reported.clearFedBy (s := s) (i := i) (d := fun k => decide (s.slots[i].lastSeg = some k))
    (r := s.slots[i]) hc
  dsimp only
  rw [h.slot, SlotRec.addEvent_eq]
  exact h.setSlot _

theorem State.findNode_of_node {t u : State} (h : t.node = u.node) (serial : Serial) :
    t.findNode serial = u.findNode serial := by
  unfold State.findNode
  rw [h]

theorem State.Reported.node (h : s.Reported i d r c t) : t.node = s.node :=
  (State.node_of_around h.around :)

theorem State.Reported.findNode (h : s.Reported i d r c t) (serial : Serial) : t.findNode serial = s.findNode serial :=
  State.findNode_of_node h.node serial

end

/-! ### REPORTs that dispatch nothing (R115 to R118) -/

section
variable {s : State} {g : Seg} {r : Report}

theorem State.handleReport_lever (hl : r.lever = true) :
    s.handleReport g r = if s.slots[r.slot].state = .empty then s else s.detach r.slot := if_pos hl

theorem State.handleReport_new (hl : r.lever = false)
    (h : s.slots[r.slot].state = .empty ∨ s.slots[r.slot].serial ≠ some r.serial) :
    s.handleReport g r = s.newUnit g r := (if_neg (by rw [hl]; decide)).trans (if_pos h)

theorem State.handleReport_known (hl : r.lever = false) (h : s.slots[r.slot].state ≠ .empty)
    (hs : s.slots[r.slot].serial = some r.serial) : s.handleReport g r = s.knownUnit g r :=
  (if_neg (by rw [hl]; decide)).trans (if_neg (by rw [not_or]; exact ⟨h, not_not_intro hs⟩))

theorem State.hearOn_findNode (serial : Serial) : (s.hearOn g r.slot).findNode serial = s.findNode serial :=
  State.findNode_of_node (by rw [State.hearOn_eq]; rfl) serial

/-- A REPORT that leaves its slot's state clears the miss count: a stale one, and one of a REFUSED unit (R117, R118). -/
theorem State.handleReport_kept (hl : r.lever = false) (hs : s.slots[r.slot].serial = some r.serial)
    (hcase : (s.slots[r.slot].state = .active ∧ s.slots[r.slot].lastSeq = some r.seq ∧ (s.findNode r.serial).isSome) ∨
      (s.slots[r.slot].state = .refused ∧ s.findNode r.serial = none)) :
    s.handleReport g r = s.reported r.slot (fun k => decide (s.slots[r.slot].lastSeg = some k ∧ k ≠ g))
      { s.slots[r.slot] with miss := 0, lastSeg := some g } := by
  have hne : s.slots[r.slot].state ≠ .empty := by rcases hcase with h | h <;> rw [h.1] <;> decide
  have hk : s.knownUnit g r =
      (s.hearOn g r.slot).setSlot r.slot { (s.hearOn g r.slot).slots[r.slot] with miss := 0 } := by
    unfold State.knownUnit
    dsimp only
    rw [State.hearOn_findNode]
    rcases hcase with ⟨ha, hq, hn⟩ | ⟨ha, hn⟩
    · obtain ⟨n, hn⟩ := Option.isSome_iff_exists.mp hn
      rw [hn, ha]
      exact if_pos hq
    · rw [hn, ha]
  rw [State.handleReport_known hl hne hs, hk, State.hearOn_eq, State.reported_slot, State.reported_setSlot]

/-- An unlisted serial at an EMPTY slot (R116). -/
theorem State.handleReport_empty (hl : r.lever = false) (he : s.slots[r.slot].state = .empty)
    (hn : s.findNode r.serial = none) :
    s.handleReport g r = s.reported r.slot (fun _ => false) (s.slots[r.slot].refused g r 2) := by
  rw [State.handleReport_new hl (.inl he), State.newUnit, if_pos he, hn]
  rfl

/-- An ACTIVE or LOST slot whose serial is no longer listed (R117). -/
theorem State.handleReport_barred (hl : r.lever = false) (hs : s.slots[r.slot].serial = some r.serial)
    (ha : s.slots[r.slot].state = .active ∨ s.slots[r.slot].state = .lost) (hn : s.findNode r.serial = none) :
    s.Reported r.slot (fun k => decide (s.slots[r.slot].lastSeg = some k ∧ k ≠ g) || decide (some g = some k))
      (s.slots[r.slot].refused g r 2) True (s.handleReport g r) := by
  have hne : s.slots[r.slot].state ≠ .empty := by rcases ha with e | e <;> rw [e] <;> decide
  have h := State.Reported.clearFedBy (s := s) (i := r.slot)
    (d := fun k => decide (s.slots[r.slot].lastSeg = some k ∧ k ≠ g) || decide (some g = some k))
    (r := { s.slots[r.slot] with lastSeg := some g }) trivial
  have hk : s.knownUnit g r = (((s.hearOn g r.slot).dropRecords r.slot).clearFedBy r.slot).refuse g r := by
    unfold State.knownUnit
    dsimp only
    rw [State.hearOn_findNode, hn]
    rcases ha with e | e <;> rw [e]
  rw [State.handleReport_known hl hne hs, hk, State.hearOn_eq, State.reported_dropRecords, State.refuse, h.slot]
  exact h.setSlot _

/-- An unlisted serial at a slot that held another (R116). -/
theorem State.handleReport_replaced (hl : r.lever = false) (h : s.slots[r.slot].swapped r)
    (hn : s.findNode r.serial = none) :
    s.Reported r.slot (fun k => decide (s.slots[r.slot].lastSeg = some k)) (s.slots[r.slot].refused g r 0x22) True
      (s.handleReport g r) := by
  have hout := State.swapOut_reported (s := s) (i := r.slot) trivial
  rw [State.handleReport_new hl (.inr h.2), State.newUnit, if_neg h.1, hout.findNode, hn]
  dsimp only
  rw [State.refuse, hout.slot]
  have hrec : SlotRec.addEvent { SlotRec.flag { s.slots[r.slot] with lastSeq := none, miss := 0, lost := 0 } 0x20 with
      state := .refused, serial := some r.serial, lastSeg := some g, lastSeq := none, miss := 0, lost := 0 } .refused =
      s.slots[r.slot].refused g r 0x22 := by
    unfold SlotRec.addEvent SlotRec.flag SlotRec.refused
    dsimp only
    rw [BitVec.or_assoc]
    rfl
  rw [hrec]
  exact hout.setSlot _

end

end Sys2Proof.Machine
end

section
/-! SUPPORT. An accepted REPORT: the slot admitted, the mirror copy, the dispatch of its blocks, the count check. -/

namespace Sys2Proof.Machine

/-! ### Acceptance (R116 to R119) -/

/-- The mirror copy, the dispatch and the count check of an accepted REPORT (R120 to R122). -/
def State.handOn (s : State) (g : Seg) (r : Report) (n : NodeEntry) : State :=
  let t := State.dispatchFrom r.slot n.seatCount 0 r.blocks (if n.mirror then s.offerMirror (r.copy g) else s)
  if r.blocks.length ≠ n.seatCount then t.addEvent r.slot .countMismatch else t

theorem State.accept_eq (s : State) (g : Seg) (r : Report) (n : NodeEntry) :
    s.accept g r n =
      (s.setSlot r.slot { s.slots[r.slot] with miss := 0, lastSeq := some r.seq }).handOn g r n := rfl

section
variable {s t : State} {g : Seg} {r : Report} {n : NodeEntry} {d : Seg → Bool} {old : SlotRec} {c : Prop} [Decidable c]

theorem State.Reported.admitUnit (h : s.Reported r.slot d old c t) :
    s.Reported r.slot d (SlotRec.flag { old with
      state := .active, serial := some r.serial, lastSeg := some g, lastSeq := none } 1) c (t.admitUnit g r) := by
  unfold State.admitUnit
  rw [h.slot, SlotRec.addEvent_eq]
  exact h.setSlot _

theorem State.Reported.accept (h : s.Reported r.slot d old c t) {new : SlotRec}
    (hnew : { old with miss := 0, lastSeq := some r.seq } = new) :
    ∃ u, t.accept g r n = u.handOn g r n ∧ s.Reported r.slot d new c u := by
  subst hnew
  exact ⟨_, by rw [State.accept_eq, h.slot], h.setSlot _⟩

theorem SlotRec.admitted_of_swapped (h : old.swapped r) : old.admitted g r =
    SlotRec.flag { old with
      state := .active, serial := some r.serial, lastSeg := some g, lastSeq := some r.seq, miss := 0, lost := 0 } 0x21 := by
  unfold SlotRec.admitted SlotRec.admission
  rw [if_pos (.inl h), if_pos h]

theorem SlotRec.admitted_of_same (h : ¬old.swapped r) : old.admitted g r =
    SlotRec.flag { old with
      state := .active, serial := some r.serial, lastSeg := some g, lastSeq := some r.seq, miss := 0
      lost := if old.state = .lost then 0 else old.lost }
      (if old.state = .active then 0 else if old.state = .lost then 8 else 1) := by
  unfold SlotRec.admitted SlotRec.admission
  rw [if_neg h]
  simp only [h, false_or]

end

section
variable {s : State} {g : Seg} {r : Report} {n : Fin 16}

/-- The segments whose QUEUED records of the slot an accepted REPORT answers: the slot's last one, unless the same unit is
heard there again (R102, R116, R117). -/
def SlotRec.leaves (old : SlotRec) (g : Seg) (r : Report) (k : Seg) : Bool :=
  decide (old.state ≠ .empty ∧ old.lastSeg = some k ∧ (old.swapped r ∨ k ≠ g))

theorem State.newUnit_accepted (hn : s.findNode r.serial = some n)
    (h : s.slots[r.slot].state = .empty ∨ s.slots[r.slot].serial ≠ some r.serial) :
    ∃ u, s.newUnit g r = u.handOn g r s.node[n] ∧ s.Reported r.slot (s.slots[r.slot].leaves g r)
      (s.slots[r.slot].admitted g r) (s.slots[r.slot].swapped r) u := by
  unfold State.newUnit
  by_cases he : s.slots[r.slot].state = .empty
  · have hsw : ¬s.slots[r.slot].swapped r := fun c => c.1 he
    have hd : s.slots[r.slot].leaves g r = fun _ => false := funext fun k => decide_eq_false fun c => c.1 he
    have hself := State.Reported.of_eq (s.reported_self r.slot).symm hsw
    rw [if_pos he, hd]
    dsimp only
    rw [hn]
    refine hself.admitUnit.accept ?_
    rw [SlotRec.admitted_of_same hsw, he]
    rfl
  · have hsw : s.slots[r.slot].swapped r := ⟨he, h.resolve_left he⟩
    have hd : s.slots[r.slot].leaves g r = fun k => decide (s.slots[r.slot].lastSeg = some k) :=
      funext fun k => decide_eq_decide.mpr ⟨fun c => c.2.1, fun c => ⟨he, c, .inl hsw⟩⟩
    have hout := State.swapOut_reported (s := s) (i := r.slot) hsw
    rw [if_neg he, hd]
    dsimp only
    rw [hout.findNode, hn, ← hout.node]
    refine hout.admitUnit.accept ?_
    rw [SlotRec.admitted_of_swapped hsw]
    exact SlotRec.flag_flag { s.slots[r.slot] with
      state := .active, serial := some r.serial, lastSeg := some g, lastSeq := some r.seq, miss := 0, lost := 0 } 0x20 1

theorem State.knownUnit_accepted (hn : s.findNode r.serial = some n) (he : s.slots[r.slot].state ≠ .empty)
    (hs : s.slots[r.slot].serial = some r.serial)
    (hfresh : ¬(s.slots[r.slot].state = .active ∧ s.slots[r.slot].lastSeq = some r.seq)) :
    ∃ u, s.knownUnit g r = u.handOn g r s.node[n] ∧ s.Reported r.slot (s.slots[r.slot].leaves g r)
      (s.slots[r.slot].admitted g r) (s.slots[r.slot].swapped r) u := by
  have hsw : ¬s.slots[r.slot].swapped r := fun c => c.2 hs
  have hd : s.slots[r.slot].leaves g r = fun k => decide (s.slots[r.slot].lastSeg = some k ∧ k ≠ g) :=
    funext fun k => decide_eq_decide.mpr ⟨fun c => ⟨c.2.1, c.2.2.resolve_left hsw⟩, fun c => ⟨he, c.1, .inr c.2⟩⟩
  have hheard := State.Reported.of_eq (s.hearOn_eq g r.slot) hsw
  rw [State.knownUnit, hd, SlotRec.admitted_of_same hsw, State.hearOn_findNode, hn, ← hheard.node]
  split
  · rename_i m hm ha
    cases hm
    rw [if_neg fun h => hfresh ⟨ha, h⟩]
    refine hheard.accept ?_
    rw [if_neg (by rw [ha]; decide), if_pos ha, SlotRec.flag_zero, ha, hs]
  · rename_i m hm ha
    cases hm
    rw [hheard.slot, SlotRec.addEvent_eq]
    refine (hheard.setSlot _).accept ?_
    rw [if_pos ha, if_neg (by rw [ha]; decide), if_pos ha, hs]
    rfl
  · rename_i m hm hna hnl
    cases hm
    refine hheard.admitUnit.accept ?_
    rw [if_neg hnl, if_neg hna, if_neg hnl]
    rfl
  · rename_i hm _
    cases hm
  · rename_i hm _
    cases hm

/-- A REPORT of a listed serial that is not stale is accepted (R116 to R119). -/
theorem State.handleReport_accepted (hl : r.lever = false) (hn : s.findNode r.serial = some n)
    (hfresh : ¬(s.slots[r.slot].state = .active ∧ s.slots[r.slot].serial = some r.serial ∧
      s.slots[r.slot].lastSeq = some r.seq)) :
    ∃ u, s.handleReport g r = u.handOn g r s.node[n] ∧ s.Reported r.slot (s.slots[r.slot].leaves g r)
      (s.slots[r.slot].admitted g r) (s.slots[r.slot].swapped r) u := by
  by_cases h : s.slots[r.slot].state = .empty ∨ s.slots[r.slot].serial ≠ some r.serial
  · rw [State.handleReport_new hl h]
    exact State.newUnit_accepted hn h
  · obtain ⟨he, hs⟩ := not_or.mp h
    rw [State.handleReport_known hl he (not_not.mp hs)]
    exact State.knownUnit_accepted hn he (not_not.mp hs) fun c => hfresh ⟨c.1, not_not.mp hs, c.2⟩

end

/-! ### The dispatch (R120) -/

section
variable {s t : State} {slot : Slot} {ix : SeatIx} {b : Block}

/-- What the handling of a block reads beside its position's record. -/
structure FeedInputs where
  poscfg : Vector PosCfg 16
  rules : Rules
  profiles : Vector ProfileEntry 4
  ignition : Bool
  moving : Bool

def State.feedInputs (s : State) : FeedInputs :=
  { poscfg := s.poscfg, rules := s.rules, profiles := s.profiles, ignition := s.pmg.ignition, moving := s.pmg.moving }

theorem State.blockTaken_congr (h : t.feedInputs = s.feedInputs) {p : Pos} (hp : t.positions[p] = s.positions[p])
    (src : Source) (b : Block) : t.blockTaken p src b = s.blockTaken p src b := by
  have h1 : t.poscfg = s.poscfg := (congrArg FeedInputs.poscfg h :)
  have h2 : t.rules = s.rules := (congrArg FeedInputs.rules h :)
  have h3 : t.profiles = s.profiles := (congrArg FeedInputs.profiles h :)
  have h4 : t.pmg.ignition = s.pmg.ignition := (congrArg FeedInputs.ignition h :)
  have h5 : t.pmg.moving = s.pmg.moving := (congrArg FeedInputs.moving h :)
  unfold State.blockTaken State.remInputs State.profileOf
  rw [hp, h2, h3, h4, h5]
  simp only [h1]

theorem State.findSeat_of_seatmap (h : t.seatmap = s.seatmap) (slot : Slot) (ix : SeatIx) :
    t.findSeat slot ix = s.findSeat slot ix := by
  unfold State.findSeat
  rw [h]

/-- UNMAPPED_SEAT where a test says so (R120). -/
def unmappedEvent (c : Bool) : BitVec 8 := if c then 0x40 else 0

theorem unmappedEvent_or (a b : Bool) : unmappedEvent a ||| unmappedEvent b = unmappedEvent (a || b) := by
  cases a <;> cases b <;> rfl

/-- From `s` to `t` a dispatch adds events to slot `i` and acts on positions, nothing else (R120). -/
structure State.Dispatched (s : State) (i : Slot) (e : BitVec 8) (t : State) : Prop where
  around : t.around = ({ s with slots := put s.slots i (s.slots[i].flag e) } : State).around

theorem State.Dispatched.refl : s.Dispatched slot 0 s := by
  refine ⟨?_⟩
  rw [SlotRec.flag_zero, put_own]

theorem State.Dispatched.slots {e : BitVec 8} (h : s.Dispatched slot e t) :
    t.slots = put s.slots slot (s.slots[slot].flag e) := (congrArg State.slots h.around :)

theorem State.Dispatched.seatmap {e : BitVec 8} (h : s.Dispatched slot e t) : t.seatmap = s.seatmap :=
  (congrArg State.seatmap h.around :)

theorem State.Dispatched.feedInputs {e : BitVec 8} (h : s.Dispatched slot e t) : t.feedInputs = s.feedInputs :=
  (congrArg State.feedInputs h.around :)

theorem State.Dispatched.trans {u : State} {e e' : BitVec 8} (h : s.Dispatched slot e t) (h' : t.Dispatched slot e' u) :
    s.Dispatched slot (e ||| e') u := by
  have hs : t.slots[slot] = s.slots[slot].flag e := by
    simp only [h.slots]
    exact put_get_self ..
  have ha := h'.around
  rw [hs, SlotRec.flag_flag, h.slots, put_put] at ha
  exact ⟨ha.trans (congrArg (fun x : State =>
    { x with slots := put s.slots slot (s.slots[slot].flag (e ||| e')) }) h.around)⟩

theorem State.addEvent_dispatched (s : State) (i : Slot) (e : SlotEvent) :
    s.Dispatched i (BitVec.ofNat 8 (2 ^ e.bit)) (s.addEvent i e) := by
  refine ⟨?_⟩
  unfold State.addEvent
  rw [SlotRec.addEvent_eq]
  rfl

theorem State.dispatchBlock_dispatched (s : State) (slot : Slot) (ix : SeatIx) (b : Block) :
    s.Dispatched slot (unmappedEvent (s.findSeat slot ix).isNone) (s.dispatchBlock slot ix b) := by
  unfold State.dispatchBlock
  cases h : s.findSeat slot ix with
  | none => exact s.addEvent_dispatched slot .unmappedSeat
  | some i =>
    have hself := State.Dispatched.refl (s := s) (slot := slot)
    exact ⟨(s.takeBlock_around ..).trans hself.around⟩

/-- The position that takes the block of seat index `j` (R17, R120). -/
def State.target (s : State) (slot : Slot) (n j : Nat) : Option Pos :=
  if j < n then (s.findSeat slot (Fin.ofNat 3 j)).map fun e => s.seatmap[e].pos else none

theorem State.target_of_seatmap (h : t.seatmap = s.seatmap) (slot : Slot) (n j : Nat) :
    t.target slot n j = s.target slot n j := by
  unfold State.target
  rw [State.findSeat_of_seatmap h, h]

/-- A block within the seat count with no SEATMAP entry (R120). -/
def State.unmapped (s : State) (slot : Slot) (n j : Nat) : Bool :=
  decide (j < n) && (s.findSeat slot (Fin.ofNat 3 j)).isNone

theorem State.unmapped_of_seatmap (h : t.seatmap = s.seatmap) (slot : Slot) (n j : Nat) :
    t.unmapped slot n j = s.unmapped slot n j := by
  unfold State.unmapped
  rw [State.findSeat_of_seatmap h]

/-- The block of seat index `k`, dispatched where it is within the seat count (R114, R120). -/
def State.dispatchAt (s : State) (slot : Slot) (n k : Nat) (b : Block) : State :=
  if k < n then s.dispatchBlock slot (Fin.ofNat 3 k) b else s

theorem State.dispatchFrom_cons (s : State) (slot : Slot) (n k : Nat) (b : Block) (bs : List Block) :
    State.dispatchFrom slot n k (b :: bs) s = State.dispatchFrom slot n (k + 1) bs (s.dispatchAt slot n k b) := rfl

theorem State.dispatchAt_dispatched (s : State) (slot : Slot) (n k : Nat) (b : Block) :
    s.Dispatched slot (unmappedEvent (s.unmapped slot n k)) (s.dispatchAt slot n k b) := by
  unfold State.dispatchAt State.unmapped
  by_cases h : k < n
  · rw [if_pos h, decide_eq_true h, Bool.true_and]
    exact s.dispatchBlock_dispatched ..
  · rw [if_neg h, decide_eq_false h, Bool.false_and]
    exact .refl

/-- A dispatched block writes the position its key names, and no other (R24, R120). -/
theorem State.dispatchAt_positions (s : State) (slot : Slot) (n k : Nat) (b : Block) (q : Pos) :
    (s.dispatchAt slot n k b).positions[q] =
      if s.target slot n k = some q then s.blockTaken q (.seat slot (Fin.ofNat 3 k)) b else s.positions[q] := by
  unfold State.dispatchAt State.target
  by_cases h : k < n
  · rw [if_pos h, if_pos h, State.dispatchBlock]
    cases hf : s.findSeat slot (Fin.ofNat 3 k) with
    | none => rfl
    | some e =>
      simp only [State.takeBlock_positions, Option.map_some, Option.some.injEq]
      by_cases hq : s.seatmap[e].pos = q
      · subst hq
        rw [if_pos rfl]
        exact put_get_self ..
      · rw [if_neg hq]
        exact put_get_ne _ _ (Ne.symm hq)
  · rw [if_neg h, if_neg h]
    rfl

/-- The whole dispatch: UNMAPPED_SEAT where a block within the seat count has no entry (R120). -/
theorem State.dispatchFrom_dispatched (slot : Slot) (n k : Nat) (bs : List Block) (s : State) :
    s.Dispatched slot (unmappedEvent ((List.range' k bs.length).any (s.unmapped slot n)))
      (State.dispatchFrom slot n k bs s) := by
  induction bs generalizing k s with
  | nil => exact .refl
  | cons b bs ih =>
    have h := s.dispatchAt_dispatched slot n k b
    have hu : (s.dispatchAt slot n k b).unmapped slot n = s.unmapped slot n :=
      funext fun j => State.unmapped_of_seatmap h.seatmap slot n j
    have h' := h.trans (ih (k + 1) _)
    rw [hu, unmappedEvent_or] at h'
    rwa [List.length_cons, List.range'_succ, List.any_cons]

/-- A position that no block names stands (R120). -/
theorem State.dispatchFrom_other (slot : Slot) (n k : Nat) (bs : List Block) (s : State) (q : Pos)
    (h : ∀ j, k ≤ j → j < k + bs.length → s.target slot n j ≠ some q) :
    (State.dispatchFrom slot n k bs s).positions[q] = s.positions[q] := by
  induction bs generalizing k s with
  | nil => rfl
  | cons b bs ih =>
    have hd := s.dispatchAt_dispatched slot n k b
    rw [List.length_cons] at h
    rw [State.dispatchFrom_cons, ih (k + 1) _ fun j h1 h2 => ?_, State.dispatchAt_positions,
      if_neg (h k le_rfl (by omega))]
    rw [State.target_of_seatmap hd.seatmap]
    exact h j (by omega) (by omega)

/-- A position that exactly one block names takes it (R24, R120). -/
theorem State.dispatchFrom_target (slot : Slot) (n k m : Nat) (bs : List Block) (s : State) (q : Pos) (b : Block)
    (hb : bs[m]? = some b) (hq : s.target slot n (k + m) = some q)
    (h : ∀ j, k ≤ j → j < k + bs.length → j ≠ k + m → s.target slot n j ≠ some q) :
    (State.dispatchFrom slot n k bs s).positions[q] = s.blockTaken q (.seat slot (Fin.ofNat 3 (k + m))) b := by
  induction bs generalizing k m s with
  | nil => cases hb
  | cons b' bs ih =>
    have hd := s.dispatchAt_dispatched slot n k b'
    have ht : ∀ j, (s.dispatchAt slot n k b').target slot n j = s.target slot n j :=
      fun j => State.target_of_seatmap hd.seatmap slot n j
    rw [List.length_cons] at h
    rw [State.dispatchFrom_cons]
    cases m with
    | zero =>
      obtain rfl : b' = b := Option.some.inj hb
      rw [Nat.add_zero] at hq
      rw [State.dispatchFrom_other slot n (k + 1) bs _ q fun j h1 h2 => ?_, State.dispatchAt_positions, if_pos hq]
      · rfl
      · rw [ht]
        exact h j (by omega) (by omega) (by omega)
    | succ m =>
      have hk : k + 1 + m = k + (m + 1) := by omega
      rw [ih (k + 1) m _ hb (by rw [ht, hk]; exact hq) (fun j h1 h2 h3 => by
        rw [ht]; exact h j (by omega) (by omega) (by omega)), hk]
      refine State.blockTaken_congr hd.feedInputs ?_ _ b
      rw [State.dispatchAt_positions, if_neg (h k le_rfl (by omega) (by omega))]

end

/-! ### The mirror copy (R122, R203) -/

/-- The trunk port offered a mirror copy (R203). -/
def Tkp.offered (t : Tkp) (c : MirrorCopy) : Tkp :=
  if t.mirror.length < 8 then { t with mirror := t.mirror ++ [c] } else { t with flags := { t.flags with mirrorDrop := true } }

theorem State.offerMirror_eq (s : State) (c : MirrorCopy) : s.offerMirror c = { s with tkp := s.tkp.offered c } := by
  unfold State.offerMirror Tkp.offered
  by_cases h : s.tkp.mirror.length < 8
  · rw [if_pos h]
    exact if_pos h
  · rw [if_neg h]
    exact if_neg h

/-- The port after an accepted REPORT of a unit (R122). -/
def Tkp.mirrored (t : Tkp) (n : NodeEntry) (c : MirrorCopy) : Tkp := if n.mirror then t.offered c else t

/-- The events of a dispatch: UNMAPPED_SEAT and COUNT_MISMATCH (R120, R121). -/
def State.dispatchEvents (s : State) (r : Report) (n : NodeEntry) : BitVec 8 :=
  unmappedEvent ((List.range' 0 r.blocks.length).any (s.unmapped r.slot n.seatCount)) |||
    if r.blocks.length ≠ n.seatCount then 0x80 else 0

/-- What an accepted REPORT hands on: the mirror copy, the slot's events, its blocks. -/
theorem State.handOn_spec (s : State) (g : Seg) (r : Report) (n : NodeEntry) :
    ({ s with tkp := s.tkp.mirrored n (r.copy g) } : State).Dispatched r.slot (s.dispatchEvents r n) (s.handOn g r n) ∧
      (s.handOn g r n).positions = (State.dispatchFrom r.slot n.seatCount 0 r.blocks
        { s with tkp := s.tkp.mirrored n (r.copy g) }).positions := by
  have hm : (if n.mirror then s.offerMirror (r.copy g) else s) = { s with tkp := s.tkp.mirrored n (r.copy g) } := by
    unfold Tkp.mirrored
    by_cases h : n.mirror = true
    · rw [if_pos h, if_pos h, State.offerMirror_eq]
    · rw [if_neg h, if_neg h]
  unfold State.handOn State.dispatchEvents
  rw [hm]
  have h := State.dispatchFrom_dispatched r.slot n.seatCount 0 r.blocks { s with tkp := s.tkp.mirrored n (r.copy g) }
  generalize State.dispatchFrom r.slot n.seatCount 0 r.blocks { s with tkp := s.tkp.mirrored n (r.copy g) } = t at h ⊢
  dsimp only
  by_cases hc : r.blocks.length ≠ n.seatCount
  · rw [if_pos hc, if_pos hc]
    exact ⟨h.trans (t.addEvent_dispatched r.slot .countMismatch), rfl⟩
  · rw [if_neg hc, if_neg hc]
    exact ⟨h.trans .refl, rfl⟩

theorem State.dispatchEvents_of_seatmap {s t : State} (h : t.seatmap = s.seatmap) (r : Report) (n : NodeEntry) :
    t.dispatchEvents r n = s.dispatchEvents r n := by
  have hu : t.unmapped r.slot n.seatCount = s.unmapped r.slot n.seatCount :=
    funext fun j => State.unmapped_of_seatmap h r.slot n.seatCount j
  unfold State.dispatchEvents
  rw [hu]

section
variable {s u : State} {d : Seg → Bool} {new : SlotRec} {c : Prop} [Decidable c]

theorem State.Reported.seatmap {i : Slot} (h : s.Reported i d new c u) : u.seatmap = s.seatmap :=
  (congrArg State.seatmap h.around :)

theorem State.Reported.tkp {i : Slot} (h : s.Reported i d new c u) : u.tkp = s.tkp := (congrArg State.tkp h.around :)

/-- The state around the positions once an accepted REPORT is handed on, by the state before it (R116 to R122). -/
theorem State.Reported.handOn_around {r : Report} (h : s.Reported r.slot d new c u) (g : Seg) (n : NodeEntry) :
    (u.handOn g r n).around = ({ s.reported r.slot d (new.flag (s.dispatchEvents r n)) with
      tkp := s.tkp.mirrored n (r.copy g) } : State).around := by
  have ha := (u.handOn_spec g r n).1.around
  have hslot : ({ u with tkp := u.tkp.mirrored n (r.copy g) } : State).slots[r.slot] = new := h.slot
  have hslots : ({ u with tkp := u.tkp.mirrored n (r.copy g) } : State).slots = put s.slots r.slot new := h.slots
  rw [hslot, hslots, put_put, State.dispatchEvents_of_seatmap h.seatmap, h.tkp] at ha
  exact ha.trans (congrArg (fun x : State => { x with
    slots := put s.slots r.slot (new.flag (s.dispatchEvents r n)), tkp := s.tkp.mirrored n (r.copy g) }) h.around)

end

end Sys2Proof.Machine
end

section
/-! SUPPORT. The ends of a poll, and a disable that waits at one. -/

namespace Sys2Proof.Machine

/-! ### The events that end a poll (R92 to R95) -/

section
variable {s : State} {g : Seg} {p : PollRec} {bytes : List Byte}

/-- The step of a poll's end that is a miss: the segment as `y` with the poll over, UTR's handling, a disable that waited
(R95, R98). -/
def State.missStep (s : State) (g : Seg) (y : Segment) (i : Slot) : State :=
  (((s.setSeg g (y.answerSent .noResponse []).endPoll).handleMiss g i).afterPoll g).settle

/-- The step of a poll's end by a good REPORT (R92, R98). -/
def State.reportStep (s : State) (g : Seg) (r : Report) : State :=
  (((s.setSeg g (({ s.seg g with reception := .none } : Segment).answerSent .ok r.answer).endPoll).handleReport g
    r).afterPoll g).settle

theorem Segment.inReception_of {x : Segment} (h : x.state = .idle ∨ x.state = .running) (hr : x.reception = .receiving) :
    x.inReception = true := by
  unfold Segment.inReception
  rw [Segment.listens_of h, decide_eq_true hr]
  rfl

theorem execSegmentFrame_unpolled (hr : (s.seg g).inReception = true) (hp : (s.seg g).poll = none) :
    exec (.segmentFrame g bytes) s = .next (s.setSeg g { s.seg g with reception := .none, unsolicited := true }) := by
  show execSegmentFrame g bytes s = _
  unfold execSegmentFrame
  dsimp only
  rw [if_pos hr, hp]
  simp only [State.modSeg_eq, State.setSeg_setSeg, State.setSeg_seg]
  rw [← hp]
  rfl

theorem execSegmentFrameCut_unpolled (hr : (s.seg g).inReception = true) (hp : (s.seg g).poll = none) :
    exec (.segmentFrameCut g) s = .next (s.setSeg g { s.seg g with reception := .none, unsolicited := true }) := by
  show execSegmentFrameCut g s = _
  unfold execSegmentFrameCut
  dsimp only
  rw [if_pos hr, hp]
  simp only [State.modSeg_eq, State.setSeg_setSeg, State.setSeg_seg]
  rw [← hp]
  rfl

theorem execSegmentFrame_judged (hr : (s.seg g).inReception = true) (hp : (s.seg g).poll = some p) :
    exec (.segmentFrame g bytes) s = .next ((s.modSeg g Segment.endReception).judge g p bytes).settle := by
  show execSegmentFrame g bytes s = _
  unfold execSegmentFrame
  dsimp only
  rw [if_pos hr, hp]

theorem execSegmentFrame_bad (hr : (s.seg g).inReception = true) (hp : (s.seg g).poll = some p)
    (hb : parseReport bytes = none) :
    exec (.segmentFrame g bytes) s =
      .next (s.missStep g { s.seg g with reception := .none, badCheck := true } p.slot) := by
  rw [execSegmentFrame_judged hr hp, State.judge, hb]
  simp only [State.pollMiss, State.modSeg_eq, State.setSeg_setSeg, State.setSeg_seg]
  rfl

theorem execSegmentFrame_other {r : Report} (hr : (s.seg g).inReception = true) (hp : (s.seg g).poll = some p)
    (hb : parseReport bytes = some r) (hslot : r.slot ≠ p.slot) :
    exec (.segmentFrame g bytes) s =
      .next (s.missStep g { s.seg g with reception := .none, unsolicited := true } p.slot) := by
  rw [execSegmentFrame_judged hr hp, State.judge, hb]
  dsimp only
  rw [if_neg hslot]
  simp only [State.pollMiss, State.modSeg_eq, State.setSeg_setSeg, State.setSeg_seg]
  rfl

theorem execSegmentFrame_good {r : Report} (hr : (s.seg g).inReception = true) (hp : (s.seg g).poll = some p)
    (hb : parseReport bytes = some r) (hslot : r.slot = p.slot) :
    exec (.segmentFrame g bytes) s = .next (s.reportStep g r) := by
  rw [execSegmentFrame_judged hr hp, State.judge, hb]
  dsimp only
  rw [if_pos hslot]
  simp only [State.pollGood, State.modSeg_eq, State.setSeg_setSeg, State.setSeg_seg]
  rfl

theorem execSegmentFrameCut_polled (hr : (s.seg g).inReception = true) (hp : (s.seg g).poll = some p) :
    exec (.segmentFrameCut g) s = .next (s.missStep g { s.seg g with reception := .none, badCheck := true } p.slot) := by
  show execSegmentFrameCut g s = _
  unfold execSegmentFrameCut
  dsimp only
  rw [if_pos hr, hp]
  simp only [State.pollMiss, State.modSeg_eq, State.setSeg_setSeg, State.setSeg_seg]
  rfl

theorem execReplyWindowExpiry_polled (hw : (s.seg g).window.isSome) (hp : (s.seg g).poll = some p) :
    exec (.replyWindowExpiry g) s = .next (s.missStep g (s.seg g).ignoreFrame p.slot) := by
  show execReplyWindowExpiry g s = _
  unfold execReplyWindowExpiry
  rw [hp]
  dsimp only
  rw [if_pos hw]
  simp only [State.pollMiss, State.modSeg_eq, State.setSeg_setSeg, State.setSeg_seg]
  rfl

/-- A miss at a slot that is EMPTY or was last heard on another segment is not counted (R123). -/
theorem State.handleMiss_uncounted {i : Slot} (h : s.slots[i].state = .empty ∨ s.slots[i].lastSeg ≠ some g) :
    s.handleMiss g i = s := by
  unfold State.handleMiss
  dsimp only
  split
  · rfl
  · rename_i hg
    rw [h.resolve_right hg]

/-- A miss that is not counted, on an enabled segment, ends the poll and does nothing else (R92, R95). -/
theorem State.missStep_uncounted {y : Segment} {i : Slot} (hs : s.settled) (hy : y.sentWhole) (hen : y.cfg.enable = true)
    (h : s.slots[i].state = .empty ∨ s.slots[i].lastSeg ≠ some g) :
    s.missStep g y i = s.setSeg g (y.pollOver .noResponse []) := by
  have hu : s.missStep g y i = ((s.setSeg g (y.pollOver .noResponse [])).afterPoll g).settle := by
    rw [State.missStep, Segment.pollOver_eq hy,
      State.handleMiss_uncounted (s := s.setSeg g _) (by rw [State.setSeg_slots]; exact h)]
  rw [hu, State.afterPoll_of_enabled (by rw [State.setSeg_seg]; exact hen),
    State.settle_of_settled (State.setSeg_settled hs _)]

end

/-! ### A disable that waits (R98) -/

section
variable {s v : State} {g : Seg} {y : Segment} {i : Slot} {c : Bool}

theorem forall₂_comp {α β γ : Type} {R : α → β → Prop} {S : β → γ → Prop} {as : List α} {bs : List β} {cs : List γ}
    (h : List.Forall₂ R as bs) (h' : List.Forall₂ S bs cs) : List.Forall₂ (fun a c => ∃ b, R a b ∧ S b c) as cs :=
  forall₂_chain (fun _ b _ hR hS => ⟨b, hR, hS⟩) h h'

/-- The record of a poll's end with a disable waiting: SENT answered with the outcome, QUEUED of a slot that is gone
NOT_PRESENT, the other QUEUED ones SEGMENT_OFF (R98, R101, R102). -/
theorem Segment.off_records {x y : Segment} {st : AnswerStatus} {body : List Byte}
    (hy : y.records = (x.answerSent st body).records) {unheard : Prop} (hc : c = true ↔ unheard) :
    List.Forall₂ (fun q q' : PassRecord =>
      if q.isAnswered then q' = q
      else if q.state = .sent then ∃ n, q' = { q with state := .answered st body n }
      else (q.slot = i ∧ unheard → ∃ n, q' = { q with state := .answered .notPresent [] n }) ∧
        (¬(q.slot = i ∧ unheard) → ∃ n, q' = { q with state := .answered .segmentOff [] n }))
      x.records (y.dropIf c i).stop.records := by
  have h1 := answerAll_forall (fun r => r.state = .sent) st body (x.records.countP PassRecord.isAnswered) x.records
  have h23 := forall₂_comp (y.dropIf_records c i) ((y.dropIf c i).answerQueued_queuedAnswered .segmentOff)
  rw [hy] at h23
  refine forall₂_chain (fun q q1 q3 h1 h23 => ?_) h1 h23
  obtain ⟨q2, h2, h3⟩ := h23
  cases hq : q.state with
  | sent =>
    rw [if_pos (decide_eq_true hq)] at h1
    obtain ⟨n, rfl⟩ := h1
    rw [if_neg (by rintro ⟨e, -⟩; cases e)] at h2
    subst h2
    rw [if_neg (by rintro ⟨e, -⟩; cases e)] at h3
    simp only [PassRecord.isAnswered, hq, Bool.false_eq_true, if_false, if_true]
    exact ⟨n, h3⟩
  | queued =>
    rw [if_neg (by rw [hq]; decide)] at h1
    subst h1
    simp only [PassRecord.isAnswered, hq, Bool.false_eq_true, if_false, reduceCtorEq]
    refine ⟨fun hu => ?_, fun hu => ?_⟩
    · rw [if_pos ⟨hq, hu.1, hc.mpr hu.2⟩] at h2
      obtain ⟨n, rfl⟩ := h2
      rw [if_neg (by rintro ⟨e, -⟩; cases e)] at h3
      exact ⟨n, h3⟩
    · rw [if_neg fun e => hu ⟨e.2.1, hc.mp e.2.2⟩] at h2
      subst h2
      rwa [if_pos ⟨hq, rfl⟩] at h3
  | answered st' body' n =>
    rw [if_neg (by rw [hq]; simp)] at h1
    subst h1
    rw [if_neg (by rw [hq]; simp)] at h2
    subst h2
    rw [if_neg (by rw [hq]; simp)] at h3
    simp only [PassRecord.isAnswered, hq, if_true]
    exact h3

theorem Segment.dropIf_rest (x : Segment) (c : Bool) (i : Slot) :
    x.dropIf c i = { x with records := (x.dropIf c i).records } := by
  cases c <;> rfl

/-- With a disable waiting the segment stops after UTR's handling (R98). -/
theorem State.afterPoll_disabled (hseg : v.seg g = y.dropIf c i) (hen : y.cfg.enable = false) (hrun : y.state = .running) :
    v.afterPoll g = v.stopSegment g := by
  unfold State.afterPoll
  rw [hseg, Segment.dropIf_rest]
  exact if_neg fun h => h.elim (fun e => by rw [hen] at e; cases e) (fun e => by rw [hrun] at e; cases e)

/-- What a stopped segment is left with, in SLEEP or not (R98, R105). -/
theorem State.stopSegment_settle_seg (hseg : v.seg g = y.dropIf c i) (hp : y.poll = none) (hs : y.sending = none)
    (hw : y.window = none) :
    let x := (v.stopSegment g).settle.seg g
    x.state = .stopped ∧ x.poll = none ∧ x.sending = none ∧ x.window = none ∧ x.probe = false ∧ x.pass = none ∧
      x.reception = .none := by
  dsimp only
  rcases (v.stopSegment g).settle_seg_cases g with h | ⟨h, -, -⟩
  · rw [h, State.stopSegment_seg, hseg, Segment.dropIf_rest]
    exact ⟨rfl, hp, hs, hw, rfl, rfl, rfl⟩
  · rw [h]
    exact ⟨rfl, rfl, rfl, rfl, rfl, rfl, rfl⟩

/-- The stop of a segment: its ACTIVE slots LOST, the positions they feed SOURCE_LOST (R10, R127). -/
theorem State.stopSegment_spec (v : State) (g : Seg) :
    (v.stopSegment g).pmg = v.pmg ∧
      (∀ j : Slot, (v.stopSegment g).slots[j] = if v.goes g j then v.slots[j].gone else v.slots[j]) ∧
        ∀ q, ((∃ j, v.goes g j ∧ v.positions[q].losable j = true) → (v.stopSegment g).view q = v.lostView q) ∧
          ((∀ j, v.goes g j → v.positions[q].losable j = false) → (v.stopSegment g).view q = v.view q) := by
  obtain ⟨-, hpmg, hslots, hviews⟩ := State.loseSegment_setSeg_spec (s := v) (g := g) (v.seg g).stop_unqueued
  exact ⟨hpmg, hslots, hviews⟩

/-- The stopped segment itself, where the step does not enter SLEEP. -/
theorem State.stopSegment_settle_awake (h : (v.stopSegment g).settle.pmg.power = v.pmg.power) :
    (v.stopSegment g).settle.seg g = (v.seg g).stop := by
  have hpow : (v.stopSegment g).pmg.power = v.pmg.power := congrArg Pmg.power (v.stopSegment_spec g).1
  rcases (v.stopSegment g).settle_seg_cases g with hk | ⟨-, h1, h2⟩
  · rw [hk, State.stopSegment_seg]
  · exact absurd (h1.symm.trans (h.trans (hpow.symm.trans h2))) (by decide)

/-- The slots after the stop: the segment's ACTIVE ones LOST (R127). -/
theorem State.stopSegment_settle_slots (v : State) (g : Seg) (j : Slot) :
    (v.stopSegment g).settle.slots[j] = if v.goes g j then v.slots[j].gone else v.slots[j] := by
  obtain ⟨-, h, -⟩ := v.stopSegment_spec g
  generalize v.stopSegment g = u at h ⊢
  have hs : u.settle.slots = u.slots := congrArg Records.slots u.settle_records
  simp only [hs]
  exact h j

theorem State.settle_positions_eq (t : State) : t.settle.positions = t.positions :=
  congrArg Records.positions t.settle_records

/-- Every position of a slot that the stop loses is SOURCE_LOST, or not fed by it (R10, R127). -/
theorem State.stopSegment_settle_lost {j : Slot} (h : v.goes g j) (q : Pos) :
    (v.stopSegment g).settle.positions[q].losable j = false := by
  rw [State.settle_positions_eq]
  obtain ⟨-, -, hviews⟩ := v.stopSegment_spec g
  obtain ⟨hgo, hstay⟩ := hviews q
  clear hviews
  generalize v.stopSegment g = u at hgo hstay ⊢
  by_cases hl : ∃ k, v.goes g k ∧ v.positions[q].losable k = true
  · have hrec : u.positions[q] = v.lostPosition q := congrArg PosView.record (hgo hl)
    rw [hrec]
    exact v.lostPosition_not_losable q j
  · have hnone : ∀ k, v.goes g k → v.positions[q].losable k = false := fun k hk =>
      Bool.eq_false_iff.mpr fun e => hl ⟨k, hk, e⟩
    have hrec : u.positions[q] = v.positions[q] := congrArg PosView.record (hstay hnone)
    rw [hrec]
    exact hnone j h

end

end Sys2Proof.Machine
end

section
/-! SUPPORT. The claim about the ends of a poll that are a miss, and about a disable that waits. -/

namespace Sys2Proof.Machine

theorem State.findNode_eq_none {s : State} {serial : Serial} :
    s.findNode serial = none ↔ ¬∃ i : Fin 16, s.node[i].valid = true ∧ s.node[i].serial = serial := by
  simp [State.findNode, List.find?_eq_none]

/-! ### UTR's outcome for the segment and the slot -/

section
variable {s t : State} {g : Seg}

/-- UTR changed slot `i` alone, not to LOST, and answered the slot's QUEUED records of segment `g` exactly if `P`. -/
def State.Outcome (s : State) (g : Seg) (i : Slot) (P : Prop) (t : State) : Prop :=
  ∃ (new : SlotRec) (c : Bool), t.slots = put s.slots i new ∧ new.state ≠ .lost ∧
    t.seg g = (s.seg g).dropIf c i ∧ (c = true ↔ P)

theorem State.Reported.outcome {i : Slot} {d : Seg → Bool} {new : SlotRec} {c : Prop} [Decidable c] {P : Prop}
    (h : s.Reported i d new c t) (hnew : new.state ≠ .lost) (hd : d g = true ↔ P) : s.Outcome g i P t :=
  ⟨new, d g, h.slots, hnew, h.seg g, hd⟩

end

section
variable {old : SlotRec} {g : Seg} {r : Report} {listed : Prop}

/-- The QUEUED records of a slot on a segment are answered where its unit goes: by the lever, by another serial, by a
listing that ended (R102, R115 to R117). -/
def SlotRec.unheard (old : SlotRec) (g : Seg) (r : Report) (listed : Prop) : Prop :=
  (old.state ≠ .empty ∧ old.lastSeg = some g ∧ (r.lever = true ∨ old.serial ≠ some r.serial)) ∨
  (r.lever = false ∧ old.serial = some r.serial ∧ ¬listed ∧ (old.state = .active ∨ old.state = .lost))

theorem SlotRec.unheard_of_lever (hl : r.lever = true) :
    old.unheard g r listed ↔ old.state ≠ .empty ∧ old.lastSeg = some g := by
  simp [SlotRec.unheard, hl]

theorem SlotRec.unheard_of_known (hl : r.lever = false) (hs : old.serial = some r.serial) :
    old.unheard g r listed ↔ ¬listed ∧ (old.state = .active ∨ old.state = .lost) := by
  simp [SlotRec.unheard, hl, hs]

theorem SlotRec.unheard_of_listed (hl : r.lever = false) (h : listed) :
    old.unheard g r listed ↔ old.lastSeg = some g ∧ old.swapped r := by
  simp only [SlotRec.unheard, hl, h, Bool.false_eq_true, false_or, not_true, false_and, and_false, or_false]
  exact ⟨fun ⟨h1, h2, h3⟩ => ⟨h2, h1, h3⟩, fun ⟨h2, h1, h3⟩ => ⟨h1, h2, h3⟩⟩

theorem SlotRec.unheard_of_other (hl : r.lever = false) (hs : old.serial ≠ some r.serial) :
    old.unheard g r listed ↔ old.state ≠ .empty ∧ old.lastSeg = some g := by
  simp [SlotRec.unheard, hl, hs]

theorem SlotRec.not_unheard_of_empty (he : old.state = .empty) : ¬old.unheard g r listed := by
  rintro (h | ⟨-, -, -, h | h⟩)
  · exact h.1 he
  · rw [he] at h; cases h
  · rw [he] at h; cases h

end

section
variable {s : State} {g : Seg} {r : Report}

/-- What a REPORT's handling leaves of its slot and of the slot's records on segment `g`. -/
abbrev State.ReportOutcome (s : State) (g : Seg) (r : Report) : Prop :=
  s.Outcome g r.slot (s.slots[r.slot].unheard g r (s.findNode r.serial ≠ none)) (s.handleReport g r)

theorem State.reportOutcome_of_lever (hl : r.lever = true) : s.ReportOutcome g r := by
  unfold State.ReportOutcome
  rw [State.handleReport_lever hl, SlotRec.unheard_of_lever hl]
  split
  · rename_i he
    exact (State.Reported.of_eq (c := False) (s.reported_self r.slot).symm id).outcome (he.trans_ne (by decide))
      ⟨fun h => absurd h Bool.false_ne_true, fun h => absurd he h.1⟩
  · rename_i he
    exact (State.detach_reported (s := s) (c := True) trivial).outcome (by exact (by decide : SlotState.empty ≠ .lost))
      (decide_eq_true_iff.trans ⟨fun h => ⟨he, h⟩, And.right⟩)

theorem State.reportOutcome_of_unlisted (hl : r.lever = false) (hn : s.findNode r.serial = none) :
    s.ReportOutcome g r := by
  unfold State.ReportOutcome
  have hrefused : ∀ e, (s.slots[r.slot].refused g r e).state ≠ .lost := fun _ => (by decide : SlotState.refused ≠ .lost)
  by_cases he : s.slots[r.slot].state = .empty
  · exact (State.Reported.of_eq (c := False) (State.handleReport_empty hl he hn) id).outcome (hrefused _)
      ⟨fun h => absurd h Bool.false_ne_true, fun h => absurd h (SlotRec.not_unheard_of_empty he)⟩
  by_cases hs : s.slots[r.slot].serial = some r.serial
  · rw [SlotRec.unheard_of_known hl hs]
    cases hstate : s.slots[r.slot].state with
    | empty => exact absurd hstate he
    | refused =>
      exact (State.Reported.of_eq (c := False) (State.handleReport_kept hl hs (.inr ⟨hstate, hn⟩)) id).outcome
        (hstate.trans_ne (by decide)) (decide_eq_true_iff.trans ⟨fun h => absurd rfl h.2, fun h => by simp at h⟩)
    | active =>
      exact (State.handleReport_barred hl hs (.inl hstate) hn).outcome (hrefused _) (by simp [hn])
    | lost =>
      exact (State.handleReport_barred hl hs (.inr hstate) hn).outcome (hrefused _) (by simp [hn])
  · exact (State.handleReport_replaced hl ⟨he, hs⟩ hn).outcome (hrefused _)
      (decide_eq_true_iff.trans ((SlotRec.unheard_of_other hl hs).trans ⟨And.right, fun h => ⟨he, h⟩⟩).symm)

theorem State.reportOutcome_of_listed {n : Fin 16} (hl : r.lever = false) (hn : s.findNode r.serial = some n) :
    s.ReportOutcome g r := by
  unfold State.ReportOutcome
  rw [SlotRec.unheard_of_listed hl (by rw [hn]; simp)]
  by_cases h : s.slots[r.slot].state = .active ∧ s.slots[r.slot].serial = some r.serial ∧
      s.slots[r.slot].lastSeq = some r.seq
  · obtain ⟨ha, hs, hq⟩ := h
    have hkept := State.handleReport_kept (g := g) hl hs (.inl ⟨ha, hq, by rw [hn]; rfl⟩)
    exact (State.Reported.of_eq (c := False) hkept id).outcome (ha.trans_ne (by decide))
      (decide_eq_true_iff.trans ⟨fun h => absurd rfl h.2, fun h => absurd hs h.2.2⟩)
  · obtain ⟨u, hu, hrep⟩ := State.handleReport_accepted (g := g) hl hn h
    have ha := hrep.handOn_around g s.node[n]
    rw [hu]
    refine ⟨_, s.slots[r.slot].leaves g r g, (congrArg State.slots ha :), ?_, ?_, ?_⟩
    · exact (by decide : SlotState.active ≠ .lost)
    · exact (State.seg_of_around ha g).trans (by cases g <;> rfl)
    · exact decide_eq_true_iff.trans ⟨fun h => ⟨h.2.1, h.2.2.resolve_right (not_not_intro rfl)⟩,
        fun h => ⟨h.2.1, h.1, .inl h.2⟩⟩

theorem State.reportOutcome (s : State) (g : Seg) (r : Report) : s.ReportOutcome g r := by
  cases hl : r.lever with
  | true => exact State.reportOutcome_of_lever hl
  | false =>
    cases hn : s.findNode r.serial with
    | none => exact State.reportOutcome_of_unlisted hl hn
    | some n => exact State.reportOutcome_of_listed hl hn

end

/-! ### The end of a poll with a disable waiting (R98) -/

section
variable {s v : State} {g : Seg} {y : Segment} {i : Slot} {c : Bool} {st : AnswerStatus} {body : List Byte}

/-- What the end of a poll with a disable waiting leaves: the segment STOPPED, the other slots of the segment LOST, and
the records answered where the step does not enter SLEEP (R98, R127). -/
def State.StoppedBy (s : State) (g : Seg) (i : Slot) (st : AnswerStatus) (body : List Byte) (unheard : Prop) (t : State) :
    Prop :=
  ((t.seg g).state = .stopped ∧ (t.seg g).poll = none ∧ (t.seg g).sending = none ∧ (t.seg g).window = none ∧
    (t.seg g).probe = false ∧ (t.seg g).pass = none ∧ (t.seg g).reception = .none) ∧
    (∀ j : Slot, j ≠ i → t.slots[j] = if s.goes g j then s.slots[j].gone else s.slots[j]) ∧
    (t.pmg.power = s.pmg.power → List.Forall₂ (fun q q' : PassRecord =>
      if q.isAnswered then q' = q
      else if q.state = .sent then ∃ n, q' = { q with state := .answered st body n }
      else (q.slot = i ∧ unheard → ∃ n, q' = { q with state := .answered .notPresent [] n }) ∧
        (¬(q.slot = i ∧ unheard) → ∃ n, q' = { q with state := .answered .segmentOff [] n }))
      (s.seg g).records (t.seg g).records)

theorem State.stopSegment_stoppedBy {x : Segment} (hx : x.records = (s.seg g).records) (hpow : v.pmg.power = s.pmg.power)
    (hseg : v.seg g = (x.answerSent st body).endPoll.dropIf c i) {new : SlotRec} (hslots : v.slots = put s.slots i new)
    {unheard : Prop} (hc : c = true ↔ unheard) : s.StoppedBy g i st body unheard (v.stopSegment g).settle := by
  refine ⟨State.stopSegment_settle_seg hseg rfl rfl rfl, fun j hj => ?_, fun h => ?_⟩
  · have hother : v.slots[j] = s.slots[j] := by
      simp only [hslots]
      exact put_get_ne _ _ hj
    rw [State.stopSegment_settle_slots]
    unfold State.goes
    rw [hother]
  · rw [State.stopSegment_settle_awake (h.trans hpow.symm), hseg]
    refine Segment.off_records ?_ hc
    unfold Segment.answerSent Segment.answer
    rw [← hx]
    rfl

/-- A miss that ends a poll with a disable waiting: the miss counted at the polled slot, then the stop (R98, R123). -/
theorem State.missStep_disabled {x : Segment} (hx : x.records = (s.seg g).records) (hcfg : x.cfg = (s.seg g).cfg)
    (hen : x.cfg.enable = false) (hrun : x.state = .running) (i : Slot) :
    s.StoppedBy g i .noResponse [] (s.slots[i].atLimit g (s.seg g).cfg) (s.missStep g x i) ∧
      (s.missStep g x i).slots[i] = (if s.slots[i].drops g (s.seg g).cfg then s.slots[i].dropped
        else if s.goes g i then (s.slots[i].counted g).gone else s.slots[i].counted g) ∧
      ∀ q : Pos, (s.slots[i].drops g (s.seg g).cfg → s.positions[q].fedBy i = true →
          (s.missStep g x i).positions[q] = Position.reset) ∧
        ((∃ j, s.goes g j ∧ s.positions[q].losable j = true) → (s.missStep g x i).positions[q] = s.lostPosition q) ∧
          (¬(s.slots[i].drops g (s.seg g).cfg ∧ s.positions[q].fedBy i = true) →
            (∀ j, s.goes g j → s.positions[q].losable j = false) →
              (s.missStep g x i).positions[q] = s.positions[q]) := by
  have hy : (x.answerSent .noResponse []).endPoll.cfg = (s.seg g).cfg := hcfg
  have hpow := ((s.setSeg g (x.answerSent .noResponse []).endPoll).handleMiss_utr g i).power
  rw [State.setSeg_pmg] at hpow
  obtain ⟨haround, hslots, -, hmiss⟩ := s.handleMiss_setSeg_spec g i hy
  unfold State.missStep
  generalize (s.setSeg g (x.answerSent .noResponse []).endPoll).handleMiss g i = v at hpow haround hslots hmiss ⊢
  have hseg : v.seg g = (x.answerSent .noResponse []).endPoll.dropIf
      (decide (s.slots[i].atLimit g (s.seg g).cfg)) i := by
    refine (State.seg_of_around haround g).trans ?_
    unfold Segment.dropIf
    simp only [decide_eq_true_eq]
    cases g <;> rfl
  have hlost : ∀ q, v.view q = s.view q → v.lostView q = s.lostView q := fun q hq =>
    State.lostView_congr hq
      ((State.ignition_of_around haround).trans (congrArg Pmg.ignition (State.setSeg_pmg ..)))
      ((State.moving_of_around haround).trans (congrArg Pmg.moving (State.setSeg_pmg ..)))
      ((State.profiles_of_around haround).trans (State.setSeg_profiles ..))
      ((State.poscfg_of_around haround).trans (State.setSeg_poscfg ..))
  rw [State.afterPoll_disabled hseg hen hrun]
  refine ⟨State.stopSegment_stoppedBy hx hpow hseg hslots decide_eq_true_iff, ?_, fun q => ?_⟩
  · have hself : v.slots[i] = s.slots[i].missed g (s.seg g).cfg := by
      simp only [hslots]
      exact put_get_self ..
    rw [State.stopSegment_settle_slots]
    unfold State.goes
    rw [hself]
    exact s.slots[i].missed_faulted g (s.seg g).cfg
  · rw [State.settle_positions_eq]
    obtain ⟨-, -, hviews⟩ := v.stopSegment_spec g
    exact State.stuck_views hslots hlost hmiss hviews q

/-- A good REPORT that ends a poll with a disable waiting: UTR handles it, then the stop (R98). -/
theorem State.reportStep_disabled (hen : (s.seg g).cfg.enable = false) (hrun : (s.seg g).state = .running) (r : Report) :
    s.StoppedBy g r.slot .ok r.answer (s.slots[r.slot].unheard g r (s.findNode r.serial ≠ none)) (s.reportStep g r) ∧
      ¬(s.reportStep g r).goes g r.slot ∧
      ∀ (j : Slot) (q : Pos), s.goes g j ∨ j = r.slot → (s.reportStep g r).slots[j].state = .lost →
        (s.reportStep g r).positions[q].losable j = false := by
  unfold State.reportStep
  generalize hx : ({ s.seg g with reception := .none } : Segment) = x
  have hxr : x.records = (s.seg g).records := by rw [← hx]
  have hxe : x.cfg.enable = false := by rw [← hx]; exact hen
  have hxs : x.state = .running := by rw [← hx]; exact hrun
  have hpow := ((s.setSeg g (x.answerSent .ok r.answer).endPoll).handleReport_utr g r).power
  have hout := (s.setSeg g (x.answerSent .ok r.answer).endPoll).reportOutcome g r
  rw [State.ReportOutcome, State.findNode_of_node (u := s) (State.setSeg_node ..)] at hout
  simp only [State.setSeg_slots] at hout
  obtain ⟨new, c, hslots, hnew, hseg, hc⟩ := hout
  rw [State.setSeg_pmg] at hpow
  rw [State.setSeg_seg] at hseg
  rw [State.setSeg_slots] at hslots
  generalize (s.setSeg g (x.answerSent .ok r.answer).endPoll).handleReport g r = v at hpow hslots hseg ⊢
  rw [State.afterPoll_disabled hseg hxe hxs]
  have hstop := State.stopSegment_settle_slots v g
  refine ⟨State.stopSegment_stoppedBy hxr hpow hseg hslots hc, fun h => ?_, fun j q hj hlost => ?_⟩
  · unfold State.goes at h
    rw [hstop] at h
    split at h
    · exact SlotRec.gone_not_active _ h.1
    · rename_i hn
      exact hn h
  · by_cases hg : v.goes g j
    · exact State.stopSegment_settle_lost hg q
    rw [hstop, if_neg hg] at hlost
    by_cases hi : j = r.slot
    · subst hi
      have hself : v.slots[r.slot] = new := by
        simp only [hslots]
        exact put_get_self ..
      rw [hself] at hlost
      exact absurd hlost hnew
    · have hother : v.slots[j] = s.slots[j] := by
        simp only [hslots]
        exact put_get_ne _ _ hi
      refine absurd (hj.resolve_right hi) fun h => hg ?_
      unfold State.goes
      rw [hother]
      exact h

end

/-- The first part of O36: no poll outstanding, or a frame that is being ignored. -/
theorem segmentFrame_unpolled (s : State) (g : Seg) (bytes : List Byte) :
    let x := s.seg g
    (x.state = .idle ∨ x.state = .running → x.poll = none → x.reception = .receiving →
      exec (.segmentFrame g bytes) s = .next (s.setSeg g { x with reception := .none, unsolicited := true }) ∧
        exec (.segmentFrameCut g) s = .next (s.setSeg g { x with reception := .none, unsolicited := true })) ∧
      (x.reception = .ignoring → exec (.segmentFrame g bytes) s = .next s) := by
  intro x
  refine ⟨fun hstate hpoll hrec => ?_, fun hign => congrArg Host.Outcome.next (if_neg fun h => ?_)⟩
  · have hin := Segment.inReception_of hstate hrec
    exact ⟨execSegmentFrame_unpolled hin hpoll, execSegmentFrameCut_unpolled hin hpoll⟩
  · have hrec : x.reception = .receiving := of_decide_eq_true (Bool.and_eq_true_iff.mp h).2
    rw [hign] at hrec
    cases hrec

/-- Settles O36: the frame without a poll, the miss that is not counted, the ends of a poll with a disable waiting. -/
theorem pollMissed : Obligations.PollMissed := by
  refine ⟨segmentFrame_unpolled, ?_, ?_⟩
  · intro s g p bytes r x ended hs hsent hrun hen hpoll hun
    have hmiss : ∀ {c : Instr} {y : Segment}, exec c s = .next (s.missStep g y p.slot) → y.records = x.records →
        y.poll = x.poll → y.cfg = x.cfg → exec c s = .next (s.setSeg g (y.pollOver .noResponse [])) :=
      fun {c y} hc h1 h2 h3 => by
        have hy : y.sentWhole := by
          unfold Segment.sentWhole
          rw [h1, h2]
          exact hsent
        rw [hc, State.missStep_uncounted hs hy (by rw [h3]; exact hen) hun]
    refine ⟨fun hrec => ?_, fun hwin => hmiss (execReplyWindowExpiry_polled hwin hpoll) rfl rfl rfl⟩
    have hin := Segment.inReception_of (.inr hrun) hrec
    exact ⟨fun hb => hmiss (execSegmentFrame_bad hin hpoll hb) rfl rfl rfl,
      hmiss (execSegmentFrameCut_polled hin hpoll) rfl rfl rfl,
      fun hb hslot => hmiss (execSegmentFrame_other hin hpoll hb hslot) rfl rfl rfl⟩
  · intro s g p x r gone lost drops missed atLimit missEnd stops hs hsent hrun hen hpoll
    have hmiss : ∀ y : Segment, y.records = x.records → y.cfg = x.cfg → y.state = x.state →
        stops (s.missStep g y p.slot) .noResponse [] atLimit ∧ (s.missStep g y p.slot).slots[p.slot] = missed ∧
          ∀ q : Pos, (drops → s.positions[q].fedBy p.slot = true →
              (s.missStep g y p.slot).positions[q] = Position.reset) ∧
            ((∃ i, gone i ∧ s.positions[q].losable i) →
              (s.missStep g y p.slot).positions[q] = s.lostPosition q) ∧
              (¬(drops ∧ s.positions[q].fedBy p.slot = true) → (∀ i, gone i → s.positions[q].losable i = false) →
                (s.missStep g y p.slot).positions[q] = s.positions[q]) := fun y h1 h2 h3 => by
      obtain ⟨ha, hb, hc⟩ := State.missStep_disabled h1 h2 (by rw [h2]; exact hen) (h3.trans hrun) p.slot
      exact ⟨ha, hb.trans (r.faulted_cases g x.cfg), hc⟩
    refine ⟨fun c hc => ?_, fun bytes m hrec hb hslot => ?_⟩
    · rcases hc with ⟨hwin, rfl⟩ | ⟨hrec, hc⟩
      · exact ⟨_, execReplyWindowExpiry_polled hwin hpoll, hmiss _ rfl rfl rfl⟩
      have hin := Segment.inReception_of (.inr hrun) hrec
      rcases hc with rfl | ⟨bytes, rfl, hother⟩
      · exact ⟨_, execSegmentFrameCut_polled hin hpoll, hmiss _ rfl rfl rfl⟩
      · cases hb : parseReport bytes with
        | none => exact ⟨_, execSegmentFrame_bad hin hpoll hb, hmiss _ rfl rfl rfl⟩
        | some m => exact ⟨_, execSegmentFrame_other hin hpoll hb (hother m hb), hmiss _ rfl rfl rfl⟩
    · intro listed old barred
      have hin := Segment.inReception_of (.inr hrun) hrec
      have hunheard : s.slots[m.slot].unheard g m (s.findNode m.serial ≠ none) ↔ old ∨ barred := by
        have hlisted : s.findNode m.serial ≠ none ↔ listed := by
          rw [Ne, State.findNode_eq_none, Classical.not_not]
        have hslots : s.slots[m.slot] = r := by
          show s.slots[m.slot] = s.slots[p.slot]
          simp only [hslot]
        rw [hslots, hlisted]
        exact Iff.rfl
      obtain ⟨ha, hn, hl⟩ := State.reportStep_disabled hen hrun m
      rw [hunheard] at ha
      rw [hslot] at ha hn hl
      exact ⟨_, execSegmentFrame_good hin hpoll hb hslot, ha, hn, hl⟩

end Sys2Proof.Machine
end

section
/-! SUPPORT. The claim about a good REPORT: the ones that dispatch nothing, and the accepted ones. -/

namespace Sys2Proof.Machine

/-! ### The step of a good REPORT on an enabled segment -/

section
variable {s : State} {g : Seg} {i : Slot} {d : Seg → Bool} {new : SlotRec} {c : Prop} [Decidable c] {r : Report}

/-- The segment whose poll a good REPORT has ended (R92, R101). -/
def Segment.heardOk (x : Segment) (r : Report) : Segment := { x.pollOver .ok r.answer with reception := .none }

/-- On an enabled segment UTR's handling ends the step (R92). -/
theorem State.reportStep_enabled (hsent : (s.seg g).sentWhole) (hen : (s.seg g).cfg.enable = true) (r : Report) :
    s.reportStep g r = ((s.setSeg g ((s.seg g).heardOk r)).handleReport g r).settle := by
  have hy : (({ s.seg g with reception := .none } : Segment).answerSent .ok r.answer).endPoll = (s.seg g).heardOk r :=
    Segment.pollOver_eq (g := { s.seg g with reception := .none }) hsent .ok r.answer
  have hrest := (((s.setSeg g ((s.seg g).heardOk r)).handleReport_utr g r).seg g).rest
  rw [State.setSeg_seg] at hrest
  rw [State.reportStep, hy, State.afterPoll_of_enabled (by rw [hrest]; exact hen)]

theorem State.reported_settle (hs : s.settled) : (s.reported i d new).settle = s.reported i d new :=
  State.settle_of_settled (State.settled_of_eq hs rfl rfl rfl)

theorem State.Reported.settle_slots {t : State} (h : s.Reported i d new c t) : t.settle.slots = put s.slots i new :=
  (congrArg Records.slots t.settle_records).trans h.slots

theorem State.Reported.settle_cleared {t : State} (h : s.Reported i d new True t) (q : Pos) :
    t.settle.positions[q] = if s.positions[q].fedBy i then Position.reset else s.positions[q] := by
  rw [State.settle_positions_eq, h.positions]
  simp only [true_and]

/-- Where the slot's records were answered, or the step entered SLEEP, none of the slot's is QUEUED (R102, R105). -/
theorem State.Reported.settle_unqueued {t : State} (h : s.Reported i d new c t) (hd : d g = true) :
    ∀ q ∈ (t.settle.seg g).records, q.slot = i → q.state ≠ .queued := by
  intro q hq hqi
  rcases t.settle_seg_cases g with e | ⟨e, -, -⟩
  · rw [e, h.seg, hd] at hq
    exact Segment.dropSlot_not_queued hq hqi
  · rw [e] at hq
    cases hq

/-- Serials are unique, so the entry of a serial is the one found (R109, R110). -/
theorem State.findNode_of_unique {n : Fin 16} (hu : serialsUnique s.node) (hv : s.node[n].valid = true) :
    s.findNode s.node[n].serial = some n := by
  cases h : s.findNode s.node[n].serial with
  | none => exact absurd ⟨n, hv, rfl⟩ (State.findNode_eq_none.mp h)
  | some m =>
    have hm := List.find?_some h
    simp only [Bool.and_eq_true, decide_eq_true_eq] at hm
    exact congrArg some (not_not.mp fun hne => hu m n hm.1 hv hne hm.2)

theorem parseBlocks_length (low : Bool) (n : Nat) (bs : List Byte) : (parseBlocks low n bs).length = n := by
  induction n generalizing bs with
  | zero => rfl
  | succ n ih => exact congrArg Nat.succ (ih _)

/-- A good REPORT holds at most three blocks (section 10.10). -/
theorem parseReport_blocks {bytes : List Byte} (h : parseReport bytes = some r) : r.blocks.length ≤ 3 := by
  unfold parseReport at h
  dsimp only at h
  split at h
  · split at h
    · rename_i hc
      obtain ⟨-, -, -, -, -, hb, -⟩ := hc
      cases h
      exact (parseBlocks_length ..).trans_le hb
    · cases h
  · cases h

end

/-! ### The dispatch by the entries of SEATMAP -/

section
variable {s : State} {slot : Slot} {n k : Nat} {ix : SeatIx} {j : Fin 24}

/-- A valid SEATMAP entry with a key (R17). -/
abbrev State.mapsSeat (s : State) (slot : Slot) (ix : SeatIx) (j : Fin 24) : Prop :=
  s.seatmap[j].valid = true ∧ s.seatmap[j].slot = slot ∧ s.seatmap[j].seat = ix

theorem State.mapsSeat_of_findSeat (h : s.findSeat slot ix = some j) : s.mapsSeat slot ix j := by
  have hj := List.find?_some h
  simpa only [Bool.and_eq_true, decide_eq_true_eq, and_assoc] using hj

theorem State.findSeat_eq_none : s.findSeat slot ix = none ↔ ∀ j : Fin 24, ¬s.mapsSeat slot ix j := by
  simp [State.findSeat, State.mapsSeat, List.find?_eq_none]

theorem State.findSeat_of_unique (hu : seatsUnique s.seatmap) (h : s.mapsSeat slot ix j) : s.findSeat slot ix = some j := by
  cases hf : s.findSeat slot ix with
  | none => exact absurd h (State.findSeat_eq_none.mp hf j)
  | some e =>
    obtain ⟨hv, hslot, hseat⟩ := State.mapsSeat_of_findSeat hf
    exact congrArg some (not_not.mp fun hne =>
      (hu e j hv h.1 hne).1 ⟨hslot.trans h.2.1.symm, hseat.trans h.2.2.symm⟩)

theorem State.target_eq_some {q : Pos} (h : s.target slot n k = some q) :
    k < n ∧ ∃ e, s.mapsSeat slot (Fin.ofNat 3 k) e ∧ s.seatmap[e].pos = q := by
  unfold State.target at h
  split at h
  · rename_i hk
    obtain ⟨e, he, hq⟩ := Option.map_eq_some_iff.mp h
    exact ⟨hk, e, State.mapsSeat_of_findSeat he, hq⟩
  · cases h

theorem State.target_of_unique (hu : seatsUnique s.seatmap) (hk : k < n) (h : s.mapsSeat slot (Fin.ofNat 3 k) j) :
    s.target slot n k = some s.seatmap[j].pos := by
  rw [State.target, if_pos hk, State.findSeat_of_unique hu h]
  rfl

/-- UNMAPPED_SEAT in the terms of the claims (R120). -/
theorem State.any_unmapped {len : Nat} (hlen : len ≤ 3) :
    (List.range' 0 len).any (s.unmapped slot n) = true ↔
      ∃ ix : SeatIx, ix.val < n ∧ ix.val < len ∧ ∀ j : Fin 24, ¬s.mapsSeat slot ix j := by
  have hun : ∀ k, s.unmapped slot n k = true ↔ k < n ∧ ∀ j : Fin 24, ¬s.mapsSeat slot (Fin.ofNat 3 k) j := fun k => by
    rw [State.unmapped, Bool.and_eq_true, decide_eq_true_eq, Option.isNone_iff_eq_none, State.findSeat_eq_none]
  rw [List.any_eq_true]
  refine ⟨fun ⟨k, hk, h⟩ => ?_, fun ⟨ix, h1, h2, h3⟩ => ?_⟩
  · obtain ⟨h1, h2⟩ := (hun k).mp h
    have hk' : k < len := by simpa using hk
    have hval : (Fin.ofNat 3 k).val = k := Nat.mod_eq_of_lt (by omega)
    exact ⟨Fin.ofNat 3 k, by rw [hval]; exact h1, by rw [hval]; exact hk', h2⟩
  · exact ⟨ix.val, by simpa using h2, (hun ix.val).mpr ⟨h1, by rw [ofNat_fin]; exact h3⟩⟩

end

end Sys2Proof.Machine
end

section
/-! SUPPORT. The claim about a good REPORT, clause by clause. -/

namespace Sys2Proof.Machine

/-! ### REPORTs that dispatch nothing, to the end of the step -/

section
variable {s : State} {g : Seg} {r : Report}

/-- Slot `i` with another record, and nothing else. -/
def State.withSlot (s : State) (i : Slot) (new : SlotRec) : State := { s with slots := put s.slots i new }

theorem State.settle_lever_empty (hs : s.settled) (hl : r.lever = true) (he : s.slots[r.slot].state = .empty) :
    (s.handleReport g r).settle = s.withSlot r.slot s.slots[r.slot] := by
  rw [State.handleReport_lever hl, if_pos he, State.settle_of_settled hs]
  exact (s.reported_self r.slot).symm

theorem State.settle_lever (hl : r.lever = true) (he : s.slots[r.slot].state ≠ .empty) :
    let t := (s.handleReport g r).settle
    t.slots = put s.slots r.slot s.slots[r.slot].dropped ∧
      ∀ q : Pos, t.positions[q] = if s.positions[q].fedBy r.slot then Position.reset else s.positions[q] := by
  rw [State.handleReport_lever hl, if_neg he]
  have h := State.detach_reported (s := s) (i := r.slot) trivial
  exact ⟨h.settle_slots, h.settle_cleared⟩

/-- A stale REPORT, and one of a unit that stays REFUSED (R117, R118). -/
theorem State.settle_kept (hs : s.settled) (hl : r.lever = false) (hser : s.slots[r.slot].serial = some r.serial)
    (hcase : (s.slots[r.slot].state = .active ∧ s.slots[r.slot].lastSeq = some r.seq ∧ (s.findNode r.serial).isSome) ∨
      (s.slots[r.slot].state = .refused ∧ s.findNode r.serial = none)) :
    let t := (s.handleReport g r).settle
    t.slots = put s.slots r.slot { s.slots[r.slot] with miss := 0, lastSeg := some g } ∧ t.positions = s.positions ∧
      t.tkp = s.tkp ∧ (s.slots[r.slot].lastSeg = some g → t = s.withSlot r.slot { s.slots[r.slot] with miss := 0 }) := by
  rw [State.handleReport_kept hl hser hcase, State.reported_settle hs]
  refine ⟨rfl, rfl, rfl, fun hg => ?_⟩
  have hd : (fun k => decide (s.slots[r.slot].lastSeg = some k ∧ k ≠ g)) = fun _ => false :=
    funext fun k => decide_eq_false fun c => c.2 (Option.some.inj (c.1.symm.trans hg))
  rw [hd, ← hg]
  rfl

theorem State.settle_refused_empty (hs : s.settled) (hl : r.lever = false) (he : s.slots[r.slot].state = .empty)
    (hn : s.findNode r.serial = none) :
    (s.handleReport g r).settle = s.withSlot r.slot (s.slots[r.slot].refused g r 2) := by
  rw [State.handleReport_empty hl he hn, State.reported_settle hs]
  rfl

/-- A listing that ended (R117). -/
theorem State.settle_barred (hl : r.lever = false) (hser : s.slots[r.slot].serial = some r.serial)
    (ha : s.slots[r.slot].state = .active ∨ s.slots[r.slot].state = .lost) (hn : s.findNode r.serial = none) :
    let t := (s.handleReport g r).settle
    (∀ q : Pos, t.positions[q] = if s.positions[q].fedBy r.slot then Position.reset else s.positions[q]) ∧
      t.slots = put s.slots r.slot (s.slots[r.slot].refused g r 2) ∧
        ∀ q ∈ (t.seg g).records, q.slot = r.slot → q.state ≠ .queued := by
  have h := State.handleReport_barred (g := g) hl hser ha hn
  exact ⟨h.settle_cleared, h.settle_slots, h.settle_unqueued (by simp)⟩

/-- Another serial that is not listed (R116). -/
theorem State.settle_replaced (hl : r.lever = false) (hsw : s.slots[r.slot].swapped r)
    (hn : s.findNode r.serial = none) :
    let t := (s.handleReport g r).settle
    (∀ q : Pos, t.positions[q] = if s.positions[q].fedBy r.slot then Position.reset else s.positions[q]) ∧
      t.slots = put s.slots r.slot (s.slots[r.slot].refused g r 0x22) := by
  have h := State.handleReport_replaced (g := g) hl hsw hn
  exact ⟨h.settle_cleared, h.settle_slots⟩

end

/-! ### Accepted REPORTs, to the end of the step -/

section
variable {s u : State} {g : Seg} {r : Report} {n : NodeEntry} {d : Seg → Bool} {new : SlotRec} {c : Prop} [Decidable c]

/-- What entry to SLEEP leaves at the trunk port (section 9.7). -/
theorem State.settle_port (t : State) :
    t.settle.tkp.mirror = t.tkp.mirror ∧ t.settle.tkp.flags = t.tkp.flags ∧ t.settle.tkp.replies = t.tkp.replies := by
  by_cases h : t.pmg.power = .parkWatch ∧ t.pmg.watchSet = []
  · rw [State.settle_of_emptied h.1 h.2, deliver_shape t]
    exact ⟨rfl, rfl, rfl⟩
  · rw [State.settle_eq_deliver fun hp hw => h ⟨hp, hw⟩, deliver_shape t]
    exact ⟨rfl, rfl, rfl⟩

/-- Outside PARK_WATCH the end of a step leaves the store, the front seats' unit and the segments (R176). -/
theorem State.settle_awake {t : State} (h : t.pmg.power ≠ .parkWatch) :
    t.settle.cfs = t.cfs ∧ t.settle.lsu = t.lsu ∧ ∀ k, t.settle.seg k = t.seg k := by
  refine ⟨?_, ?_, State.settle_seg fun e => absurd e h⟩ <;>
    rw [State.settle_eq_deliver fun e => absurd e h, deliver_shape t]

/-- The port after an accepted REPORT, by the unit's mirror flag and the places left (R122, R203). -/
theorem Tkp.mirrored_cases (t : Tkp) (n : NodeEntry) (c : MirrorCopy) :
    (n.mirror = true → t.mirror.length < 8 →
        (t.mirrored n c).flags = t.flags ∧ (t.mirrored n c).mirror = t.mirror ++ [c]) ∧
      (n.mirror = true → 8 ≤ t.mirror.length →
        (t.mirrored n c).mirror = t.mirror ∧ (t.mirrored n c).flags = { t.flags with mirrorDrop := true }) ∧
      (n.mirror = false → (t.mirrored n c).mirror = t.mirror ∧ (t.mirrored n c).flags = t.flags) ∧
      (t.mirrored n c).replies = t.replies := by
  unfold Tkp.mirrored Tkp.offered
  refine ⟨fun hm hl => ?_, fun hm hl => ?_, fun hm => ?_, ?_⟩
  · rw [if_pos hm, if_pos hl]
    exact ⟨rfl, rfl⟩
  · rw [if_pos hm, if_neg (Nat.not_lt.mpr hl)]
    exact ⟨rfl, rfl⟩
  · rw [if_neg (by rw [hm]; decide)]
    exact ⟨rfl, rfl⟩
  · split
    · split <;> rfl
    · rfl

theorem State.Reported.feedInputs {i : Slot} (h : s.Reported i d new c u) : u.feedInputs = s.feedInputs :=
  (congrArg State.feedInputs h.around :)

theorem State.setSeg_feedInputs (s : State) (g : Seg) (x : Segment) : (s.setSeg g x).feedInputs = s.feedInputs := by
  cases g <;> rfl

/-- A seat whose entry is found takes its block over the positions left standing, those of any state `w` with the same
tables (R24, R120). -/
theorem State.Reported.handOn_taken (h : s.Reported r.slot d new c u) (hlen : r.blocks.length ≤ 3)
    (hu : seatsUnique s.seatmap) {k : SeatIx} {j : Fin 24} {b : Block} (hk : k.val < n.seatCount)
    (hj : s.mapsSeat r.slot k j) (hb : r.blocks[k.val]? = some b) {w : State}
    (hw : w.feedInputs = s.feedInputs)
    (hbefore : ∀ q : Pos, w.positions[q] = if c ∧ s.positions[q].fedBy r.slot = true then Position.reset else s.positions[q]) :
    (u.handOn g r n).positions[s.seatmap[j].pos] =
      w.blockTaken s.seatmap[j].pos (.seat r.slot k) b := by
  have hmap : ({ u with tkp := u.tkp.mirrored n (r.copy g) } : State).seatmap = s.seatmap := h.seatmap
  have htarget := fun m => State.target_of_seatmap hmap r.slot n.seatCount m
  have h0 : Fin.ofNat 3 (0 + k.val) = k := by rw [Nat.zero_add, ofNat_fin]
  have hq : s.target r.slot n.seatCount (0 + k.val) = some s.seatmap[j].pos :=
    State.target_of_unique hu (by omega) (by rw [h0]; exact hj)
  have hpos := (u.handOn_spec g r n).2
  simp only [hpos]
  rw [State.dispatchFrom_target r.slot n.seatCount 0 k.val r.blocks _ _ b hb (by rw [htarget]; exact hq)
    fun m _ hm hne e => ?_, h0]
  · refine State.blockTaken_congr ?_ ?_ _ b
    · exact h.feedInputs.trans hw.symm
    · exact (h.positions _).trans (hbefore _).symm
  · rw [htarget] at e
    obtain ⟨-, e, ⟨hv, -, hseat⟩, hpe⟩ := State.target_eq_some e
    have hej : e = j := not_not.mp fun hne => (hu e j hv hj.1 hne).2 hpe
    have hval : (Fin.ofNat 3 m).val = m := Nat.mod_eq_of_lt (by omega)
    have hmk : Fin.ofNat 3 m = k := by rw [← hseat, hej]; exact hj.2.2
    rw [hmk] at hval
    omega

/-- A position that no entry of a dispatched block names stands as it was left (R120). -/
theorem State.Reported.handOn_other (h : s.Reported r.slot d new c u) (hlen : r.blocks.length ≤ 3) {q : Pos}
    (hq : ∀ (k : SeatIx) (j : Fin 24), k.val < n.seatCount → k.val < r.blocks.length → s.mapsSeat r.slot k j →
      s.seatmap[j].pos ≠ q) :
    (u.handOn g r n).positions[q] =
      if c ∧ s.positions[q].fedBy r.slot = true then Position.reset else s.positions[q] := by
  have hmap : ({ u with tkp := u.tkp.mirrored n (r.copy g) } : State).seatmap = s.seatmap := h.seatmap
  have hpos := (u.handOn_spec g r n).2
  simp only [hpos]
  rw [State.dispatchFrom_other r.slot n.seatCount 0 r.blocks _ q fun m _ hm e => ?_]
  · exact h.positions q
  · rw [State.target_of_seatmap hmap] at e
    obtain ⟨hn, j, hj, hpe⟩ := State.target_eq_some e
    have hval : (Fin.ofNat 3 m).val = m := Nat.mod_eq_of_lt (by omega)
    exact hq (Fin.ofNat 3 m) j (by rw [hval]; exact hn) (by rw [hval]; omega) hj hpe

/-- The records of the polled segment after an accepted REPORT (R101, R102). -/
theorem Segment.heardOk_records (x : Segment) (r : Report) (b : Bool) (i : Slot) :
    List.Forall₂ (fun q q' : PassRecord =>
      if q.state = .sent then ∃ n, q' = { q with state := .answered .ok r.answer n }
      else if q.state = .queued ∧ q.slot = i ∧ b = true then ∃ n, q' = { q with state := .answered .notPresent [] n }
      else q' = q) x.records ((x.heardOk r).dropIf b i).records := by
  have hsent : List.Forall₂ (fun q q' : PassRecord =>
      q' = if q.state = .sent then { q with state := .answered .ok r.answer (x.records.countP PassRecord.isAnswered) }
        else q) x.records (x.heardOk r).records :=
    List.forall₂_map_right_iff.mpr (List.forall₂_same.mpr fun q _ => rfl)
  refine forall₂_chain (fun q q1 q2 h1 h2 => ?_) hsent ((x.heardOk r).dropIf_records b i)
  by_cases hq : q.state = .sent
  · rw [if_pos hq] at h1
    subst h1
    rw [if_neg (by rintro ⟨e, -⟩; cases e)] at h2
    rw [if_pos hq]
    exact ⟨_, h2⟩
  · rw [if_neg hq] at h1
    subst h1
    rw [if_neg hq]
    exact h2

/-- The records of a segment on which the slot's are answered or not, in the terms of the claims (R102). -/
theorem Segment.dropIf_queuedAnswered (x : Segment) (b : Bool) (i : Slot) :
    queuedAnswered .notPresent (fun q => b && decide (q.slot = i)) x.records (x.dropIf b i).records := by
  refine (x.dropIf_records b i).imp fun q q' h => ?_
  simpa only [Bool.and_eq_true, decide_eq_true_eq, and_comm] using h

end

end Sys2Proof.Machine
end

section
/-! SUPPORT. The claim about a good REPORT, put together. -/

namespace Sys2Proof.Machine

/-! ### REPORTs that dispatch nothing -/

/-- The first part of O38, by UTR's handling of each REPORT after the poll's end. -/
theorem reportHandled_undispatched (s : State) (g : Seg) (p : PollRec) (bytes : List Byte) (r : Report) :
    let x := s.seg g
    let slot := s.slots[r.slot]
    let heard := fun new : SlotRec => { s.setSeg g (x.heardOk r) with slots := put s.slots r.slot new }
    let listed := ∃ i : Fin 16, s.node[i].valid = true ∧ s.node[i].serial = r.serial
    let cleared := fun t : State => ∀ q : Pos, t.positions[q] =
      if s.positions[q].fedBy r.slot then Position.reset else s.positions[q]
    s.settled → x.sentWhole → x.state = .running → x.cfg.enable = true → x.poll = some p →
      x.reception = .receiving → parseReport bytes = some r → r.slot = p.slot →
        (r.lever = true → slot.state = .empty → exec (.segmentFrame g bytes) s = .next (heard slot)) ∧
        (r.lever = true → slot.state ≠ .empty → ∃ t : State, exec (.segmentFrame g bytes) s = .next t ∧
          t.slots = put s.slots r.slot slot.dropped ∧ cleared t) ∧
        (r.lever = false → slot.serial = some r.serial →
          (slot.state = .active ∧ slot.lastSeq = some r.seq ∧ listed) ∨ (slot.state = .refused ∧ ¬listed) →
            ∃ t : State, exec (.segmentFrame g bytes) s = .next t ∧
              t.slots = put s.slots r.slot { slot with miss := 0, lastSeg := some g } ∧ t.positions = s.positions ∧
                t.tkp = s.tkp ∧ (slot.lastSeg = some g → t = heard { slot with miss := 0 })) ∧
        (r.lever = false → slot.state = .empty → ¬listed →
          exec (.segmentFrame g bytes) s = .next (heard (slot.refused g r 2))) ∧
        (r.lever = false → slot.state = .active ∨ slot.state = .lost → slot.serial = some r.serial → ¬listed →
          ∃ t : State, exec (.segmentFrame g bytes) s = .next t ∧ cleared t ∧
            t.slots = put s.slots r.slot (slot.refused g r 2) ∧
              ∀ q ∈ (t.seg g).records, q.slot = r.slot → q.state ≠ .queued) ∧
        (r.lever = false → slot.swapped r → ¬listed → ∃ t : State, exec (.segmentFrame g bytes) s = .next t ∧
          cleared t ∧ t.slots = put s.slots r.slot (slot.refused g r 0x22)) := by
  intro x slot heard listed cleared hs hsent hrun hen hpoll hrec hb hslot
  have hexec := execSegmentFrame_good (Segment.inReception_of (.inr hrun) hrec) hpoll hb hslot
  rw [State.reportStep_enabled hsent hen] at hexec
  have hs0 : (s.setSeg g (x.heardOk r)).settled := State.setSeg_settled hs _
  have hfind : (s.setSeg g (x.heardOk r)).findNode r.serial = s.findNode r.serial :=
    State.findNode_of_node (State.setSeg_node ..) _
  have hnone : ¬listed → s.findNode r.serial = none := State.findNode_eq_none.mpr
  have hsome : listed → (s.findNode r.serial).isSome := fun h =>
    Option.isSome_iff_ne_none.mpr fun e => State.findNode_eq_none.mp e h
  have hheard : ∀ new, (s.setSeg g (x.heardOk r)).withSlot r.slot new = heard new := fun new => by
    unfold State.withSlot
    rw [State.setSeg_slots]
  have h1 := State.settle_lever_empty (g := g) (r := r) hs0
  have h2 := State.settle_lever (s := s.setSeg g (x.heardOk r)) (g := g) (r := r)
  have h3 := State.settle_kept (g := g) (r := r) hs0
  have h4 := State.settle_refused_empty (g := g) (r := r) hs0
  have h5 := State.settle_barred (s := s.setSeg g (x.heardOk r)) (g := g) (r := r)
  have h6 := State.settle_replaced (s := s.setSeg g (x.heardOk r)) (g := g) (r := r)
  simp only [hheard, State.setSeg_slots, State.setSeg_positions, State.setSeg_tkp, hfind] at h1 h2 h3 h4 h5 h6
  refine ⟨fun hl he => ?_, fun hl he => ⟨_, hexec, h2 hl he⟩, fun hl hser hcase => ⟨_, hexec, h3 hl hser ?_⟩,
    fun hl he hn => ?_, fun hl ha hser hn => ⟨_, hexec, h5 hl hser ha (hnone hn)⟩,
    fun hl hsw hn => ⟨_, hexec, h6 hl hsw (hnone hn)⟩⟩
  · exact hexec.trans (congrArg Host.Outcome.next (h1 hl he))
  · exact hcase.imp (fun ⟨ha, hq, hn⟩ => ⟨ha, hq, hsome hn⟩) fun ⟨ha, hn⟩ => ⟨ha, hnone hn⟩
  · exact hexec.trans (congrArg Host.Outcome.next (h4 hl he (hnone hn)))

/-! ### Accepted REPORTs -/

section
variable {s u : State} {r : Report} {d : Seg → Bool} {new old : SlotRec} {c : Prop} [Decidable c]

theorem State.Reported.handOn_seg (h : s.Reported r.slot d new c u) (g : Seg) (n : NodeEntry) (k : Seg) :
    (u.handOn g r n).seg k = (s.seg k).dropIf (d k) r.slot :=
  (State.seg_of_around (h.handOn_around g n) k).trans (by cases k <;> rfl)

/-- The step of an accepted REPORT outside the positions: slot, tables and trunk port, by the state before (R116 to
R122). -/
theorem State.Reported.handOn_settle (h : s.Reported r.slot d new c u) (g : Seg) (n : NodeEntry) :
    let t := (u.handOn g r n).settle
    t.slots = put s.slots r.slot (new.flag (s.dispatchEvents r n)) ∧
      t.tkp.mirror = (s.tkp.mirrored n (r.copy g)).mirror ∧ t.tkp.flags = (s.tkp.mirrored n (r.copy g)).flags ∧
        t.tkp.replies = (s.tkp.mirrored n (r.copy g)).replies ∧ t.node = s.node ∧ t.seatmap = s.seatmap := by
  have ha := h.handOn_around g n
  generalize u.handOn g r n = v at ha ⊢
  have htkp : v.tkp = s.tkp.mirrored n (r.copy g) := (congrArg State.tkp ha :)
  obtain ⟨hm, hf, hr⟩ := v.settle_port
  rw [htkp] at hm hf hr
  exact ⟨(congrArg Records.slots v.settle_records).trans (congrArg State.slots ha :), hm, hf, hr,
    (congrArg Records.node v.settle_records).trans (congrArg State.node ha :),
    (congrArg Records.seatmap v.settle_records).trans (congrArg State.seatmap ha :)⟩

/-- The same outside PARK_WATCH, for the store, the front seats' unit and the segments (R102). -/
theorem State.Reported.handOn_awake (h : s.Reported r.slot d new c u) (g : Seg) (n : NodeEntry)
    (hp : s.pmg.power ≠ .parkWatch) :
    let t := (u.handOn g r n).settle
    t.cfs = s.cfs ∧ t.lsu = s.lsu ∧ ∀ k, t.seg k = (s.seg k).dropIf (d k) r.slot := by
  have ha := h.handOn_around g n
  have hseg := h.handOn_seg g n
  generalize u.handOn g r n = v at ha hseg ⊢
  have hpow : v.pmg.power = s.pmg.power := (State.power_of_around ha :)
  obtain ⟨hc, hl, hs⟩ := State.settle_awake (t := v) (by rw [hpow]; exact hp)
  exact ⟨hc.trans (congrArg State.cfs ha :), hl.trans (congrArg State.lsu ha :), fun k => (hs k).trans (hseg k)⟩

/-- The events of a dispatch in the terms of the claims (R120, R121). -/
theorem State.dispatchEvents_eq {U : Prop} {_ : Decidable U} {n : NodeEntry}
    (hU : (List.range' 0 r.blocks.length).any (s.unmapped r.slot n.seatCount) = true ↔ U) :
    s.dispatchEvents r n = (if U then 0x40 else 0) ||| if r.blocks.length ≠ n.seatCount then 0x80 else 0 := by
  unfold State.dispatchEvents unmappedEvent
  simp only [hU]

end

/-- Settles O38: the REPORTs that dispatch nothing, then the accepted ones by UTR's handling, the dispatch and the end
of the step. -/
theorem reportHandled : Obligations.ReportHandled := by
  constructor
  · intro s g p bytes r x slot heard listed cleared refusedAs hs hsent hrun hen hpoll hrec hb hslot
    obtain ⟨h1, h2, h3, h4, h5, h6⟩ := reportHandled_undispatched s g p bytes r hs hsent hrun hen hpoll hrec hb hslot
    refine ⟨h1, h2, fun hl ha hser hq hn => h3 hl hser (.inl ⟨ha, hq, hn⟩),
      fun hl ha hser hn => h3 hl hser (.inr ⟨ha, hn⟩), h4, fun hl ha hser hn => ?_,
      fun hl he hser hn => h6 hl ⟨he, hser⟩ hn⟩
    obtain ⟨t, ht, hc, ht', hq⟩ := h5 hl ha hser hn
    have hlost : t.slots[r.slot].lost = 0 := by
      simp only [ht', put_get_self]
      rfl
    refine ⟨t, ht, hc, ?_, fun _ => hlost, hq⟩
    rw [hlost]
    exact ht'
  intro s g p bytes r i x slot entry own swapped takes unmapped added before hs hsent hrun hen hpoll hrec hb hslot hl
    hserials hv hser hfresh
  have hexec := execSegmentFrame_good (Segment.inReception_of (.inr hrun) hrec) hpoll hb hslot
  have hlen := parseReport_blocks hb
  have hfind : (s.setSeg g (x.heardOk r)).findNode r.serial = some i := by
    rw [State.findNode_of_node (State.setSeg_node ..), ← hser]
    exact State.findNode_of_unique hserials hv
  have hslot0 : (s.setSeg g (x.heardOk r)).slots[r.slot] = slot := by simp only [State.setSeg_slots]; rfl
  have hentry : (s.setSeg g (x.heardOk r)).node[i] = entry := by simp only [State.setSeg_node]; rfl
  obtain ⟨u, hu, hrep⟩ := State.handleReport_accepted (g := g) hl hfind (by
    rw [hslot0]
    exact fun ⟨ha, hs, hq⟩ => hfresh ⟨ha, ⟨ha.trans_ne (by decide), hs⟩, hq⟩)
  rw [hslot0] at hrep
  rw [State.reportStep_enabled hsent hen, hu, hentry] at hexec
  obtain ⟨hslots, hmirror, hflags, hreplies, hnode, hseatmap⟩ := hrep.handOn_settle g entry
  have hseg := hrep.handOn_seg g entry
  have hawake := hrep.handOn_awake g entry
  have hpositions := State.settle_positions_eq (u.handOn g r entry)
  obtain ⟨hm1, hm2, hm3, hm4⟩ := s.tkp.mirrored_cases entry (r.copy g)
  have hbefore : ∀ q : Pos, (Vector.ofFn before)[q] =
      if slot.swapped r ∧ (s.setSeg g (x.heardOk r)).positions[q].fedBy r.slot = true then Position.reset
      else (s.setSeg g (x.heardOk r)).positions[q] := fun q => by
    rw [State.setSeg_positions]
    simp [before, swapped, slot, SlotRec.swapped]
  rw [State.dispatchEvents_of_seatmap (State.setSeg_seatmap ..)] at hslots
  rw [State.setSeg_slots] at hslots
  rw [State.setSeg_tkp] at hmirror hflags hreplies
  rw [State.setSeg_node] at hnode
  rw [State.setSeg_seatmap] at hseatmap
  refine ⟨_, hexec, ?_, fun hu k j b htake hblock => ?_, fun q hq => ?_, fun hm hl8 => ?_, fun hm hl8 => ?_, fun hm => ?_,
    hreplies.trans hm4, hnode, hseatmap, ?_, fun hp => ?_⟩
  · have hunm : (List.range' 0 r.blocks.length).any (s.unmapped r.slot entry.seatCount) = true ↔ unmapped :=
      (State.any_unmapped hlen).trans ⟨fun ⟨k, h1, h2, h3⟩ => ⟨k, h1, h2, fun j ⟨_, _, hj⟩ => h3 j hj⟩,
        fun ⟨k, h1, h2, h3⟩ => ⟨k, h1, h2, fun j hj => h3 j ⟨h1, h2, hj⟩⟩⟩
    have hadded : slot.admission r ||| s.dispatchEvents r entry = added := by
      rw [State.dispatchEvents_eq hunm, ← BitVec.or_assoc]
      rfl
    rw [SlotRec.admitted, SlotRec.flag_flag, hadded] at hslots
    exact hslots
  · obtain ⟨hk, -, hj⟩ := htake
    have hw : ({ s with positions := Vector.ofFn before } : State).feedInputs =
        (s.setSeg g (x.heardOk r)).feedInputs := (s.setSeg_feedInputs g _).symm
    have h := hrep.handOn_taken (g := g) (n := entry) (k := k) (j := j) hlen (by rw [State.setSeg_seatmap]; exact hu) hk
      (by unfold State.mapsSeat; rw [State.setSeg_seatmap]; exact hj) hblock hw hbefore
    simp only [State.setSeg_seatmap] at h
    simp only [hpositions]
    exact h
  · have h := hrep.handOn_other (g := g) (n := entry) (q := q) hlen fun k j h1 h2 hj => by
      unfold State.mapsSeat at hj
      rw [State.setSeg_seatmap] at hj ⊢
      exact hq k j ⟨h1, h2, hj⟩
    simp only [hpositions]
    rw [h, ← hbefore]
    simp
  · obtain ⟨h1, h2⟩ := hm1 hm hl8
    exact ⟨hflags.trans h1, hmirror.trans h2⟩
  · obtain ⟨h1, h2⟩ := hm2 hm hl8
    exact ⟨hmirror.trans h1, hflags.trans h2⟩
  · obtain ⟨h1, h2⟩ := hm3 hm
    exact ⟨hmirror.trans h1, hflags.trans h2⟩
  · rcases (u.handOn g r entry).settle_seg_cases g with e | ⟨e, -, -⟩
    · rw [e, hseg, State.setSeg_seg, Segment.dropIf_rest]
      rfl
    · rw [e]
      rfl
  · obtain ⟨hcfs, hlsu, hsegs⟩ := hawake (by rw [State.setSeg_pmg]; exact hp)
    refine ⟨hcfs.trans (State.setSeg_cfs ..), hlsu.trans (State.setSeg_lsu ..), ?_, ?_⟩
    · have hleaves : slot.leaves g r g = true ↔ swapped ∧ slot.lastSeg = some g :=
        decide_eq_true_iff.trans ⟨fun ⟨_, h, hsw⟩ => ⟨hsw.resolve_right (not_not_intro rfl), h⟩,
          fun ⟨hsw, h⟩ => ⟨hsw.1, h, .inl hsw⟩⟩
      have h := x.heardOk_records r (slot.leaves g r g) r.slot
      simp only [hleaves] at h
      rw [hsegs, State.setSeg_seg]
      exact h
    · have hne : g.other ≠ g := by cases g <;> decide
      have hpick : (fun q : PassRecord => slot.leaves g r g.other && decide (q.slot = r.slot)) = fun q =>
          decide (slot.state ≠ .empty ∧ slot.lastSeg = some g.other ∧ q.slot = r.slot) := funext fun q => by
        rw [SlotRec.leaves, ← Bool.decide_and]
        exact decide_eq_decide.mpr ⟨fun ⟨⟨h1, h2, _⟩, h3⟩ => ⟨h1, h2, h3⟩, fun ⟨h1, h2, h3⟩ => ⟨⟨h1, h2, .inr hne⟩, h3⟩⟩
      have h := (s.seg g.other).dropIf_queuedAnswered (slot.leaves g r g.other) r.slot
      rw [hpick] at h
      rw [hsegs, State.setSeg_seg_ne _ _ hne]
      exact h

end Sys2Proof.Machine
end

section
/-! SUPPORT. The claim about a NODE write: the entry its bytes carry, the serial check, and the write to the end of the
step. -/

namespace Sys2Proof.Machine

/-! ### NODE (R109, R110, R111) -/

/-- A NODE entry of an invalidating write is the invalid form (R109). -/
theorem parseNode_invalid (b3 b2 b1 b0 n m : Byte) : parseNode [0, b3, b2, b1, b0, n, m] = .ok NodeEntry.invalid := rfl

/-- The range check of a valid NODE entry, which clamps its seat count (R110). -/
theorem parseNode_valid {v : Byte} (h : v ≠ 0) (b3 b2 b1 b0 n m : Byte) :
    let serial := ((b3.toNat * 256 + b2.toNat) * 256 + b1.toNat) * 256 + b0.toNat
    parseNode [v, b3, b2, b1, b0, n, m] =
      if serial = 0 then .error .range
      else .ok { valid := true, serial := BitVec.ofNat 32 serial, seatCount := within 1 3 n.toNat, mirror := m ≠ 0 } := by
  intro serial
  have hserial : beNat [b3, b2, b1, b0] = serial := by simp [beNat, serial]
  unfold parseNode
  rw [flagAt_of_ne h, ← hserial]
  rfl

theorem nodeDuplicate_iff {t : Vector NodeEntry 16} {i : Fin 16} {e : NodeEntry} :
    nodeDuplicate t i e = true ↔
      e.valid = true ∧ ∃ j : Fin 16, j ≠ i ∧ t[j].valid = true ∧ t[j].serial = e.serial := by
  simp [nodeDuplicate, and_assoc]

section
variable {s : State} {tag : Byte} {i : Fin 16} {bs : List Byte} {e : NodeEntry} {st : Status}

theorem node_index (i : Fin 16) : Fin.ofNat 16 (byte i.val).toNat = i := by rw [byte_toNat (by omega), ofNat_fin]

theorem node_index_lt (i : Fin 16) : (byte i.val).toNat < TableId.node.count := by
  rw [byte_toNat (by omega)]
  exact i.isLt

theorem ownNode_error {n : Nat} (hp : parseNode bs = .error st) : ownNode n bs s = .error st := by
  unfold ownNode
  rw [hp]

theorem ownNode_duplicate (hp : parseNode bs = .ok e) (hd : nodeDuplicate s.node i e = true) :
    ownNode (byte i.val).toNat bs s = .error .duplicate := by
  unfold ownNode
  rw [hp, node_index]
  exact if_pos hd

/-- An accepted NODE write changes its entry alone: no slot record sees it (R111). -/
theorem ownNode_ok (hp : parseNode bs = .ok e) (hd : nodeDuplicate s.node i e = false) :
    ownNode (byte i.val).toNat bs s = .ok { s with node := put s.node i e } := by
  unfold ownNode
  rw [hp, node_index]
  exact if_neg (by rw [hd]; decide)

/-- A TBLWR whose payload names table 1 is a write of NODE (R193, log entry 10). -/
theorem execTblwrNode_eq (s : State) (tag index : Byte) (bs : List Byte) :
    exec (.tblwrNode tag (1 :: index :: bs)) s = .next (s.takeWrite .node tag index bs ownNode).settle := rfl

/-- A NODE write that its owner refuses answers and changes nothing else (R194). -/
theorem execTblwrNode_refused (ht : s.takes) (hs : s.settled) (hprot : s.cfs.protects .node = false)
    (hl : bs.length = 7) (ho : ownNode (byte i.val).toNat bs s.rxHunt = .error st) :
    exec (.tblwrNode tag (1 :: byte i.val :: bs)) s = .next (s.answered tag 0x02 st [1, byte i.val]) := by
  rw [execTblwrNode_eq, State.takeWrite_refused ht hs hprot (node_index_lt i) hl ho]
  rfl

/-- A NODE write that passes every check stores its entry and answers with it (R110, R194). -/
theorem execTblwrNode_stored (ht : s.takes) (hs : s.settled) (hprot : s.cfs.protects .node = false)
    (hl : bs.length = 7) (hp : parseNode bs = .ok e) (hd : nodeDuplicate s.node i e = false) :
    exec (.tblwrNode tag (1 :: byte i.val :: bs)) s = .next
      ({ s with node := put s.node i e }.answered tag 0x02 .ok (1 :: byte i.val :: e.bytes)) := by
  have hb : State.entryBytes { s.rxHunt with node := put s.node i e } .node (byte i.val).toNat = e.bytes := by
    show (put s.node i e)[Fin.ofNat 16 (byte i.val).toNat].bytes = _
    simp only [node_index]
    exact congrArg NodeEntry.bytes (put_get_self ..)
  have hstored := State.takeWrite_stored (tag := tag) ht hprot (node_index_lt i) hl (ownNode_ok (s := s.rxHunt) hp hd)
  rw [execTblwrNode_eq, hstored, State.rxHunt_node, hb]
  exact congrArg Host.Outcome.next (State.settle_of_settled (State.settled_of_eq hs rfl rfl rfl))

end

/-- Settles O13: the outcomes of the parse, then of the serial check; only a valid entry can be a duplicate. -/
theorem nodeWrite : Obligations.NodeWrite := by
  intro s tag i v b3 b2 b1 b0 n m ht hs hprot serial e held c
  have hvalid : v ≠ 0 → e.valid = true := fun hv => by rw [show e = _ from if_neg hv]
  have hparse : v = 0 ∨ serial ≠ 0 → parseNode [v, b3, b2, b1, b0, n, m] = .ok e := by
    intro h
    by_cases hv : v = 0
    · rw [show e = NodeEntry.invalid from if_pos hv, hv]
      exact parseNode_invalid b3 b2 b1 b0 n m
    · rw [show e = _ from if_neg hv]
      exact (parseNode_valid hv ..).trans (if_neg (h.resolve_left hv))
  have hfree : v = 0 ∨ ¬held → nodeDuplicate s.node i e = false := by
    rw [Bool.eq_false_iff]
    rintro (hv | hn) hd <;> obtain ⟨hval, hheld⟩ := nodeDuplicate_iff.mp hd
    · rw [show e = NodeEntry.invalid from if_pos hv] at hval
      exact absurd hval (by decide)
    · exact hn hheld
  refine ⟨fun hv h0 => ?_, fun hv h0 hheld => ?_, fun hok => ?_⟩
  · exact execTblwrNode_refused ht hs hprot rfl (ownNode_error ((parseNode_valid hv ..).trans (if_pos h0)))
  · exact execTblwrNode_refused ht hs hprot rfl
      (ownNode_duplicate (hparse (.inr h0)) (nodeDuplicate_iff.mpr ⟨hvalid hv, hheld⟩))
  · exact execTblwrNode_stored ht hs hprot rfl (hparse (hok.imp_right And.left)) (hfree (hok.imp_right And.right))

end Sys2Proof.Machine
end

section
/-! SUPPORT. The laws of the watch, the ignition, the panel and the chime: the part of the state they speak of, what a
handling of RME keeps of them, and what the end of a step does. -/

namespace Sys2Proof.Machine

/-! ### What the laws read -/

/-- The part of the state that the laws of watch, ignition, panel and chime speak of. -/
structure Gauges where
  power : Power
  sub : Bool
  ignition : Bool
  runDown : Bool
  watchSet : List Pos
  rem : Pos → Reminder
  image : Vector Glyph 16
  chd : Chd
  toChime : List ChimeEvent

/-- The gauges of a state. -/
def State.gauges (s : State) : Gauges :=
  { power := s.pmg.power, sub := s.pmg.sub.isSome, ignition := s.pmg.ignition, runDown := s.pmg.runDown.isSome,
    watchSet := s.pmg.watchSet, rem := fun p => s.positions[p].rem, image := s.pnd.image, chd := s.chd,
    toChime := s.toChime }

/-- The law of the watch set inside a step, where the set may have emptied and the entry to SLEEP is to come (R168,
R176; log entry 13). -/
def Gauges.watchKept (g : Gauges) : Prop :=
  (g.watchSet ≠ [] → g.power = .parkWatch) ∧ (g.power = .parkWatch ↔ g.sub = true) ∧ g.watchSet.Nodup

/-- The law of the ignition (R154, R169, R172). -/
def Gauges.ignitionKept (g : Gauges) : Prop :=
  (g.power ≠ .run → g.ignition = false) ∧ (g.runDown = true → g.power = .run ∧ g.ignition = false) ∧
    (g.ignition = false → ∀ p, (g.rem p).state = .off)

/-- The law of the panel (R150). -/
def Gauges.panelKept (g : Gauges) : Prop := ∀ p : Pos, g.image[p] = (g.rem p).state.glyph

/-- The request of a position once CHD has taken the events on their way (R149, R156). -/
def Gauges.due (g : Gauges) (p : Pos) : Option Tone :=
  ((lastOf p g.toChime).map ChimeEvent.leaves).getD g.chd.requests[p]

/-- The law of the requests inside a step, where events are on their way (R149; log entry 21). -/
def Gauges.requestsKept (g : Gauges) : Prop := ∀ p, (g.due p).isSome = (g.rem p).sounding

/-- From `s` to `t` every law of watch, ignition, panel and chime is kept, as it stands inside a step. -/
structure Holds (s t : State) : Prop where
  watch : s.gauges.watchKept → t.gauges.watchKept
  ignition : s.gauges.ignitionKept → t.gauges.ignitionKept
  panel : s.gauges.panelKept → t.gauges.panelKept
  chime : s.chd.whole → t.chd.whole
  requests : s.gauges.ignitionKept → s.gauges.requestsKept → t.gauges.requestsKept

theorem Holds.refl {s : State} : Holds s s := ⟨id, id, id, id, fun _ => id⟩

theorem Holds.trans {s t u : State} (h : Holds s t) (h' : Holds t u) : Holds s u :=
  ⟨h'.watch ∘ h.watch, h'.ignition ∘ h.ignition, h'.panel ∘ h.panel, h'.chime ∘ h.chime,
    fun hi hr => h'.requests (h.ignition hi) (h.requests hi hr)⟩

theorem Holds.of_gauges {s t : State} (h : t.gauges = s.gauges) : Holds s t := by
  have hc : t.chd = s.chd := (congrArg Gauges.chd h :)
  exact ⟨h ▸ id, h ▸ id, h ▸ id, hc ▸ id, fun _ => h ▸ id⟩

theorem Holds.after {s t u : State} (h' : Holds t u) (h : t.gauges = s.gauges) : Holds s u :=
  (Holds.of_gauges h).trans h'

/-- Nothing waits for the end of the step in `t` where nothing did in `s` (R156, R176). -/
structure Calm (s t : State) : Prop extends Holds s t where
  quiet : s.toChime = [] → t.toChime = []
  filled : (s.pmg.power = .parkWatch → s.pmg.watchSet ≠ []) → t.pmg.power = .parkWatch → t.pmg.watchSet ≠ []

theorem Calm.refl {s : State} : Calm s s := ⟨.refl, id, id⟩

theorem Calm.trans {s t u : State} (h : Calm s t) (h' : Calm t u) : Calm s u :=
  ⟨h.toHolds.trans h'.toHolds, h'.quiet ∘ h.quiet, h'.filled ∘ h.filled⟩

theorem Calm.of_gauges {s t : State} (h : t.gauges = s.gauges) : Calm s t := by
  have hp : t.pmg.power = s.pmg.power := (congrArg Gauges.power h :)
  have hw : t.pmg.watchSet = s.pmg.watchSet := (congrArg Gauges.watchSet h :)
  have hc : t.toChime = s.toChime := (congrArg Gauges.toChime h :)
  exact ⟨.of_gauges h, hc ▸ id, by rw [hp, hw]; exact id⟩

theorem Calm.after {s t u : State} (h' : Calm t u) (h : t.gauges = s.gauges) : Calm s u := (Calm.of_gauges h).trans h'

/-! ### One position at a time -/

/-- What a handling of one position, a clearing or a block makes of its view: the glyph follows the reminder, the
request will follow the ON phase, OFF stays OFF with the ignition off (R149, R150, R154). -/
structure PosView.Follows (ignition : Bool) (v w : PosView) : Prop where
  glyph : v.glyph = v.record.rem.state.glyph → w.glyph = w.record.rem.state.glyph
  request : ∀ old : Option Tone,
    ((v.events.getLast?.map ChimeEvent.leaves).getD old).isSome = v.record.rem.sounding →
    ((w.events.getLast?.map ChimeEvent.leaves).getD old).isSome = w.record.rem.sounding
  off : ignition = false → v.record.rem.state = .off → w.record.rem.state = .off

theorem PosView.Follows.refl {i : Bool} {v : PosView} : v.Follows i v := ⟨id, fun _ => id, fun _ => id⟩

theorem PosView.Follows.trans {i : Bool} {v w x : PosView} (h : v.Follows i w) (h' : w.Follows i x) : v.Follows i x :=
  ⟨h'.glyph ∘ h.glyph, fun old => h'.request old ∘ h.request old, fun hi => h'.off hi ∘ h.off hi⟩

/-- The last of two lists of events decides, the second before the first (R156). -/
theorem getLast?_append_leaves (as bs : List ChimeEvent) (old : Option Tone) :
    (((as ++ bs).getLast?.map ChimeEvent.leaves).getD old) =
      (bs.getLast?.map ChimeEvent.leaves).getD ((as.getLast?.map ChimeEvent.leaves).getD old) := by
  rw [List.getLast?_append]
  cases bs.getLast? <;> rfl

/-- RME's handling at a position (R149, R150). -/
theorem PosView.Follows.handled {i : Bool} {v : PosView} {p : Pos} {out : Reminder × List ChimeCall}
    (hs : callsStand v.record.rem out) (ho : i = false → v.record.rem.state = .off → out.1.state = .off) :
    v.Follows i (v.handled p out) where
  glyph h := by
    show (if out.1.state = v.record.rem.state then v.glyph else out.1.state.glyph) = out.1.state.glyph
    split
    · rename_i e
      rw [h, e]
    · rfl
  request old h := by
    show (((v.events ++ out.2.map (ChimeCall.event p)).getLast?.map ChimeEvent.leaves).getD old).isSome =
      out.1.sounding
    rw [getLast?_append_leaves]
    exact hs.request p h
  off := ho

/-- A clearing (R4): the reminder OFF, DARK, a sounding request withdrawn. -/
theorem PosView.Follows.cleared {i : Bool} {v : PosView} {p : Pos} : v.Follows i (v.cleared p) where
  glyph _ := rfl
  request old h := by
    show (((v.events ++ v.record.rem.leave.map (ChimeCall.event p)).getLast?.map ChimeEvent.leaves).getD old).isSome =
      false
    rw [getLast?_append_leaves]
    exact (leave_stands v.record.rem Reminder.reset rfl).request p h
  off _ _ := rfl

/-- A record replaced by one with the same reminder. -/
theorem PosView.Follows.record {i : Bool} {v : PosView} {r : Position} (h : r.rem = v.record.rem) :
    v.Follows i { v with record := r } := by
  refine ⟨fun hg => ?_, fun old hr => ?_, fun _ ho => ?_⟩
  · exact hg.trans (congrArg (fun x : Reminder => x.state.glyph) h.symm)
  · exact hr.trans (congrArg Reminder.sounding h.symm)
  · exact (congrArg Reminder.state h).trans ho

/-- From `s` to `t` each position is handled, cleared or fed, and nothing around the positions changes but for
positions that leave the watch set. -/
structure Follows (s t : State) : Prop where
  around : t.around = s.around
  watch : t.pmg.watchSet.Sublist s.pmg.watchSet
  view : ∀ p, (s.view p).Follows s.pmg.ignition (t.view p)

theorem Follows.refl {s : State} : Follows s s := ⟨rfl, List.Sublist.refl _, fun _ => .refl⟩

theorem Follows.trans {s t u : State} (h : Follows s t) (h' : Follows t u) : Follows s u := by
  have hi := State.ignition_of_around h.around
  exact ⟨h'.around.trans h.around, h'.watch.trans h.watch, fun p => (h.view p).trans (hi ▸ h'.view p)⟩

/-- A change that PMG does not see. -/
theorem Follows.of_pmg {s t : State} (ha : t.around = s.around) (hm : t.pmg = s.pmg)
    (hv : ∀ p, (s.view p).Follows s.pmg.ignition (t.view p)) : Follows s t :=
  ⟨ha, by rw [hm], hv⟩

/-- A change of one position's view alone. -/
theorem Follows.at {s t : State} (p : Pos) (ha : t.around = s.around) (hw : t.pmg.watchSet.Sublist s.pmg.watchSet)
    (hp : (s.view p).Follows s.pmg.ignition (t.view p)) (hn : ∀ q, q ≠ p → t.view q = s.view q) : Follows s t := by
  refine ⟨ha, hw, fun q => ?_⟩
  by_cases e : q = p
  · subst e; exact hp
  · rw [hn q e]; exact .refl

theorem Follows.holds {s t : State} (h : Follows s t) : Holds s t := by
  have hpow : t.pmg.power = s.pmg.power := State.power_of_around h.around
  have hign : t.pmg.ignition = s.pmg.ignition := State.ignition_of_around h.around
  have hsub : t.pmg.sub = s.pmg.sub := (congrArg (fun u : State => u.pmg.sub) h.around :)
  have hrun : t.pmg.runDown = s.pmg.runDown := (congrArg (fun u : State => u.pmg.runDown) h.around :)
  have hchd : t.chd = s.chd := (congrArg State.chd h.around :)
  refine ⟨fun ⟨h1, h2, h3⟩ => ⟨fun hw => ?_, ?_, h3.sublist h.watch⟩, fun ⟨h1, h2, h3⟩ => ⟨?_, ?_, fun hi p => ?_⟩,
    fun hp p => (h.view p).glyph (hp p), hchd ▸ id, fun _ hr p => ?_⟩
  · exact hpow.trans (h1 fun e => hw (List.sublist_nil.mp (e ▸ h.watch)))
  · show t.pmg.power = .parkWatch ↔ t.pmg.sub.isSome = true
    rw [hpow, hsub]; exact h2
  · show t.pmg.power ≠ .run → t.pmg.ignition = false
    rw [hpow, hign]; exact h1
  · show t.pmg.runDown.isSome = true → t.pmg.power = .run ∧ t.pmg.ignition = false
    rw [hrun, hpow, hign]; exact h2
  · replace hi : s.pmg.ignition = false := hign.symm.trans hi
    exact (h.view p).off hi (h3 hi p)
  · show (((lastOf p t.toChime).map ChimeEvent.leaves).getD t.chd.requests[p]).isSome = _
    rw [hchd]
    exact (h.view p).request _ (hr p)

/-! ### RME, clearings and blocks -/

/-- An evaluation of a position by inputs with the ignition as it stands (R138). -/
theorem PosView.Follows.evaluated (v : PosView) (p : Pos) (i : RemInputs) :
    v.Follows i.ignition (v.handled p (evaluate i v.record.rem)) :=
  .handled (evaluate_stands ..) fun h _ => evaluate_off h _

/-- A tick leaves OFF with the ignition off: OFF does not count (R141). -/
theorem tickReminder_off {i : RemInputs} (h : i.ignition = false) (r : Reminder) : (tickReminder i r).1.state = .off := by
  have he := evaluate_off h r
  unfold tickReminder
  dsimp only
  split
  · show (countTick i.profile i.moving (evaluate i r).1).1.state = .off
    unfold countTick
    rw [he]
    exact he
  · exact he

theorem State.evalAt_follows (s : State) (p : Pos) : Follows s (s.evalAt p) := by
  refine .at p (s.applyReminder_around p _) (List.Sublist.refl _) ?_ fun q h => s.applyReminder_view_ne h _
  unfold State.evalAt
  rw [State.applyReminder_view_self]
  exact .evaluated (s.view p) p (s.remInputs p)

theorem State.evalAll_follows (s : State) : Follows s s.evalAll := by
  obtain ⟨ha, hm, hv⟩ := s.evalAll_spec
  refine .of_pmg ha hm fun p => ?_
  rw [hv p]
  exact .evaluated (s.view p) p (s.remInputs p)

theorem State.tickAll_follows (s : State) : Follows s s.tickAll := by
  obtain ⟨ha, hm, hv⟩ := s.tickAll_spec
  refine .of_pmg ha hm fun p => ?_
  rw [hv p]
  exact .handled (tickReminder_stands ..) fun hi _ => tickReminder_off hi _

theorem State.evalProfile_follows (s : State) (i : Fin 4) : Follows s (s.evalProfile i) := by
  obtain ⟨ha, hm, hv⟩ := s.evalProfile_spec i
  refine .of_pmg ha hm fun p => ?_
  rw [hv p]
  split
  · exact .evaluated (s.view p) p (s.remInputs p)
  · exact .refl

theorem State.clearPos_follows (s : State) (p : Pos) : Follows s (s.clearPos p) := by
  refine .at p (s.clearPos_around p) List.filter_sublist ?_ fun q h => s.clearPos_view_ne h
  rw [State.clearPos_view_self]
  exact .cleared

theorem State.clearIfSeated_follows (s : State) (p : Pos) : Follows s (s.clearIfSeated p) := by
  unfold State.clearIfSeated
  split
  exacts [.refl, s.clearPos_follows p]

theorem State.clearFedBy_follows (s : State) (i : Slot) : Follows s (s.clearFedBy i) := by
  obtain ⟨ha, hv, hw⟩ := s.clearFedBy_spec i
  refine ⟨ha, by rw [hw]; exact List.filter_sublist, fun p => ?_⟩
  rw [hv p]
  split
  exacts [.cleared, .refl]

/-- A loss keeps the reminder and evaluates it (R10). -/
theorem State.loseFedBy_follows (s : State) (i : Slot) : Follows s (s.loseFedBy i) := by
  obtain ⟨ha, hm, hv⟩ := s.loseFedBy_spec i
  refine .of_pmg ha hm fun p => ?_
  rw [hv p]
  split
  · have hr : (s.view p).Follows s.pmg.ignition { s.view p with record := (s.view p).record.lose } := .record rfl
    exact hr.trans (.evaluated _ p { s.remInputs p with presence := .sourceLost })
  · exact .refl

theorem State.setPos_follows {s : State} {p : Pos} {r : Position} (h : r.rem = s.positions[p].rem) :
    Follows s (s.setPos p r) := by
  refine .at p rfl (List.Sublist.refl _) ?_ fun q hq => s.setPos_view_ne r hq
  rw [State.setPos_view_self]
  exact .record h

theorem State.leaveWatch_follows (s : State) (p : Pos) : Follows s (s.leaveWatch p) :=
  ⟨rfl, List.filter_sublist, fun _ => ⟨id, fun _ => id, fun _ => id⟩⟩

/-- OCE handles a block without the reminder (R24). -/
theorem Position.takeBlock_rem (cfg : PosCfg) (rules : Rules) (p : Pos) (src : Source) (b : Block) (r : Position) :
    (r.takeBlock cfg rules p src b).rem = r.rem := by
  refine Position.takeBlock_cases (P := fun n => n.rem = r.rem) (fun _ => ?_) (fun _ => rfl) (fun _ => ?_) fun _ => rfl
  · exact Position.classify_rem ..
  · exact Position.classify_rem ..

theorem State.takeBlock_follows (s : State) (p : Pos) (src : Source) (b : Block) : Follows s (s.takeBlock p src b) := by
  have h1 : Follows s (s.setPos p (s.positions[p].takeBlock s.poscfg[p] s.rules p src b)) :=
    State.setPos_follows (Position.takeBlock_rem ..)
  have h2 := h1.trans (State.evalAt_follows _ p)
  unfold State.takeBlock
  dsimp only
  split <;> split
  · exact h2.trans (State.leaveWatch_follows _ p)
  · exact h1.trans (State.leaveWatch_follows _ p)
  · exact h2
  · exact h1

end Sys2Proof.Machine
end

section
/-! SUPPORT. UTR, the segments and LSU over the gauges: they reach them through positions cleared, lost and fed alone. -/

namespace Sys2Proof.Machine

/-! ### What leaves the gauges alone -/

@[simp] theorem State.modSeg_gauges (s : State) (g : Seg) (f : Segment → Segment) :
    (s.modSeg g f).gauges = s.gauges := by
  cases g <;> rfl

@[simp] theorem State.fillReserved_gauges (s : State) (st : Status) (body : List Byte) :
    (s.fillReserved st body).gauges = s.gauges := by
  unfold State.fillReserved
  split <;> rfl

@[simp] theorem State.startScan_gauges (s : State) : s.startScan.gauges = s.gauges := by
  unfold State.startScan
  dsimp only
  split
  · rfl
  · split <;> rfl
  · rfl

@[simp] theorem State.requestScan_gauges (s : State) : s.requestScan.gauges = s.gauges := by
  unfold State.requestScan
  split
  exacts [s.startScan_gauges, rfl]

@[simp] theorem State.dropRecords_gauges (s : State) (i : Slot) : (s.dropRecords i).gauges = s.gauges := by
  unfold State.dropRecords
  split
  exacts [s.modSeg_gauges .., rfl]

@[simp] theorem State.offerMirror_gauges (s : State) (c : MirrorCopy) : (s.offerMirror c).gauges = s.gauges := by
  unfold State.offerMirror
  split <;> rfl

@[simp] theorem Pnd.enterRun_image (n : Pnd) : n.enterRun.image = n.image := by
  unfold Pnd.enterRun
  split <;> rfl

theorem State.whileScanning_gauges {s : State} {f : Pnd → Pnd} (h : (f s.pnd).image = s.pnd.image) :
    (s.whileScanning f).gauges = s.gauges := by
  unfold State.whileScanning
  split
  · unfold State.gauges
    dsimp only
    rw [h]
  · rfl

theorem Pnd.slotStart_image (n : Pnd) : n.slotStart.image = n.image := by
  unfold Pnd.slotStart
  split
  · rfl
  · split
    · split <;> rfl
    · rfl

theorem State.pollStart_gauges (s : State) (g : Seg) : (s.pollStart g).gauges = s.gauges := by
  unfold State.pollStart
  split
  · exact s.modSeg_gauges ..
  · split
    exacts [s.modSeg_gauges .., rfl]
  · rfl

theorem State.setPos_gauges {s : State} {p : Pos} {r : Position} (h : r.rem = s.positions[p].rem) :
    (s.setPos p r).gauges = s.gauges := by
  have hrem : ∀ q : Pos, (s.setPos p r).positions[q].rem = s.positions[q].rem := fun q => by
    by_cases e : q = p
    · subst e
      exact (congrArg Position.rem (put_get_self ..)).trans h
    · exact congrArg Position.rem (put_get_ne _ _ e)
  unfold State.gauges
  simp only [hrem]
  rfl

theorem Pmg.dwellReview_shape (m : Pmg) :
    m.dwellReview = { m with dwell := m.dwellReview.dwell, dwellTimer := m.dwellReview.dwellTimer } := by
  unfold Pmg.dwellReview
  split
  · split <;> rfl
  · rfl

theorem State.dwellReview_gauges (s : State) : (s.modPmg Pmg.dwellReview).gauges = s.gauges := by
  unfold State.modPmg
  rw [Pmg.dwellReview_shape]
  rfl

/-! ### UTR (R102, R114 to R128) -/

theorem Holds.ite {s t u : State} {c : Prop} [Decidable c] (ht : Holds s t) (hu : Holds s u) :
    Holds s (if c then t else u) := by
  split
  exacts [ht, hu]

theorem Holds.fold {α : Type} {f : State → α → State} (h : ∀ t a, Holds t (f t a)) (as : List α) (s : State) :
    Holds s (as.foldl f s) := by
  induction as generalizing s with
  | nil => exact .refl
  | cons a as ih => exact (h s a).trans (ih _)

theorem Holds.setSlot {s : State} (i : Slot) (r : SlotRec) : Holds s (s.setSlot i r) := .of_gauges rfl

theorem State.modSeg_holds (s : State) (g : Seg) (f : Segment → Segment) : Holds s (s.modSeg g f) :=
  .of_gauges (s.modSeg_gauges g f)

theorem State.clearFedBy_holds (s : State) (i : Slot) : Holds s (s.clearFedBy i) := (s.clearFedBy_follows i).holds

theorem State.dispatchBlock_holds (s : State) (slot : Slot) (ix : SeatIx) (b : Block) :
    Holds s (s.dispatchBlock slot ix b) := by
  unfold State.dispatchBlock
  split
  exacts [(s.takeBlock_follows ..).holds, .setSlot ..]

theorem State.dispatchFrom_holds (slot : Slot) (n k : Nat) (bs : List Block) (s : State) :
    Holds s (State.dispatchFrom slot n k bs s) := by
  induction bs generalizing k s with
  | nil => exact .refl
  | cons b bs ih => exact (Holds.ite (s.dispatchBlock_holds slot _ b) .refl).trans (ih _ _)

theorem State.accept_holds (s : State) (g : Seg) (r : Report) (n : NodeEntry) : Holds s (s.accept g r n) := by
  unfold State.accept
  dsimp only
  generalize hu : s.setSlot r.slot { s.slots[r.slot] with miss := 0, lastSeq := some r.seq } = u
  have h : Holds s (if n.mirror then u.offerMirror (r.copy g) else u) :=
    .after (.ite (.of_gauges (u.offerMirror_gauges _)) .refl) (by rw [← hu]; rfl)
  refine h.trans ((State.dispatchFrom_holds r.slot n.seatCount 0 r.blocks _).trans ?_)
  exact .ite (.setSlot ..) .refl

theorem State.detach_holds (s : State) (i : Slot) : Holds s (s.detach i) :=
  .after ((State.clearFedBy_holds _ i).trans (.setSlot ..)) (s.dropRecords_gauges i)

theorem State.swapOut_holds (s : State) (i : Slot) : Holds s (s.swapOut i) :=
  .after ((State.clearFedBy_holds _ i).trans (.setSlot ..)) (s.dropRecords_gauges i)

theorem State.newUnit_holds (s : State) (g : Seg) (r : Report) : Holds s (s.newUnit g r) := by
  unfold State.newUnit
  dsimp only
  have h : Holds s (if s.slots[r.slot].state = .empty then s else s.swapOut r.slot) := .ite .refl (s.swapOut_holds r.slot)
  refine h.trans ?_
  generalize (if s.slots[r.slot].state = .empty then s else s.swapOut r.slot) = u
  split
  · exact Holds.trans (.setSlot ..) (State.accept_holds _ g r _)
  · exact .setSlot ..

theorem State.hearOn_holds (s : State) (g : Seg) (i : Slot) : Holds s (s.hearOn g i) :=
  Holds.trans (.ite .refl (.of_gauges (s.dropRecords_gauges i))) (.setSlot ..)

theorem State.knownUnit_holds (s : State) (g : Seg) (r : Report) : Holds s (s.knownUnit g r) := by
  unfold State.knownUnit
  dsimp only
  refine (s.hearOn_holds g r.slot).trans ?_
  generalize s.hearOn g r.slot = u
  split
  · exact .ite (.setSlot ..) (u.accept_holds g r _)
  · exact Holds.trans (.setSlot ..) (State.accept_holds _ g r _)
  · exact Holds.trans (.setSlot ..) (State.accept_holds _ g r _)
  · exact .setSlot ..
  · exact .after ((State.clearFedBy_holds _ _).trans (.setSlot ..)) (u.dropRecords_gauges _)

theorem State.handleReport_holds (s : State) (g : Seg) (r : Report) : Holds s (s.handleReport g r) := by
  unfold State.handleReport
  dsimp only
  split
  · exact .ite .refl (s.detach_holds _)
  · exact .ite (s.newUnit_holds g r) (s.knownUnit_holds g r)

theorem State.loseSlot_holds (s : State) (i : Slot) : Holds s (s.loseSlot i) :=
  .after ((State.loseFedBy_follows _ i).holds.trans (.setSlot ..)) (s.dropRecords_gauges i)

theorem State.dropSlot_holds (s : State) (i : Slot) : Holds s (s.dropSlot i) := (s.clearFedBy_holds i).trans (.setSlot ..)

theorem State.handleMiss_holds (s : State) (g : Seg) (i : Slot) : Holds s (s.handleMiss g i) := by
  rw [State.handleMiss_eq]
  split
  · exact Holds.trans (.setSlot ..) (State.dropSlot_holds _ i)
  split
  · exact Holds.trans (.setSlot ..) (State.loseSlot_holds _ i)
  · exact .setSlot ..

theorem State.loseSegment_holds (s : State) (g : Seg) : Holds s (s.loseSegment g) :=
  .fold (fun t i => .ite (t.loseSlot_holds i) .refl) _ s

/-! ### The end of a poll, and a stuck line (R92 to R98) -/

theorem State.stopSegment_holds (s : State) (g : Seg) : Holds s (s.stopSegment g) :=
  (s.modSeg_holds g _).trans (State.loseSegment_holds _ g)

theorem State.afterPoll_holds (s : State) (g : Seg) : Holds s (s.afterPoll g) := .ite .refl (s.stopSegment_holds g)

theorem State.pollMiss_holds (s : State) (g : Seg) (p : PollRec) (st : AnswerStatus) : Holds s (s.pollMiss g p st) :=
  (s.modSeg_holds g _).trans ((State.handleMiss_holds _ g p.slot).trans (State.afterPoll_holds _ g))

theorem State.judge_holds (s : State) (g : Seg) (p : PollRec) (bytes : List Byte) : Holds s (s.judge g p bytes) := by
  unfold State.judge
  split
  · exact (s.modSeg_holds g _).trans (State.pollMiss_holds ..)
  · refine .ite ?_ ((s.modSeg_holds g _).trans (State.pollMiss_holds ..))
    exact (s.modSeg_holds g _).trans ((State.handleReport_holds _ g _).trans (State.afterPoll_holds _ g))

theorem State.lineStuck_holds (s : State) (g : Seg) : Holds s (s.lineStuck g) := by
  have h : Holds s (s.stuckPoll g) := by
    unfold State.stuckPoll
    split
    exacts [(s.modSeg_holds g _).trans (State.handleMiss_holds ..), .refl]
  exact h.trans ((State.modSeg_holds _ g _).trans ((State.loseSegment_holds _ g).trans (State.afterPoll_holds _ g)))

/-! ### LSU (R70, R71) -/

theorem State.afterConversion_holds (s : State) (c : Channel) (n : Count) (a b : Bool) :
    Holds s (s.afterConversion c n a b) := by
  unfold State.afterConversion
  split
  · exact .ite (.after (State.takeBlock_follows ..).holds rfl) .refl
  · exact .ite (.after (State.takeBlock_follows ..).holds rfl) .refl
  · exact .of_gauges rfl
  · exact .refl
  · exact .refl

theorem State.conversion_holds (s : State) (n : Count) (a b : Bool) : Holds s (s.conversion n a b) := by
  unfold State.conversion
  split
  · exact .refl
  · rename_i c cs _
    have h : Holds s (State.afterConversion
        { s with lsu := { s.lsu with results := put s.lsu.results c.index n, remaining := cs } } c n a b) :=
      .after (State.afterConversion_holds _ c n a b) rfl
    exact .ite (h.trans (.of_gauges (State.startScan_gauges _))) h

end Sys2Proof.Machine
end

section
/-! SUPPORT. The power manager over the gauges: the power states, the resets, the ignition and the end of a step. -/

namespace Sys2Proof.Machine

/-! ### CHD alone -/

/-- CHD changed in what is not a position's request. -/
theorem Calm.chd {s t : State} (h : t.gauges = { s.gauges with chd := t.chd }) (hw : s.chd.whole → t.chd.whole)
    (hr : t.chd.requests = s.chd.requests) : Calm s t := by
  have hpow : t.pmg.power = s.pmg.power := (congrArg Gauges.power h :)
  have hset : t.pmg.watchSet = s.pmg.watchSet := (congrArg Gauges.watchSet h :)
  have hcalls : t.toChime = s.toChime := (congrArg Gauges.toChime h :)
  refine ⟨⟨h ▸ id, h ▸ id, h ▸ id, hw, fun _ hs p => ?_⟩, hcalls ▸ id, by rw [hpow, hset]; exact id⟩
  have hdue : t.gauges.due p = s.gauges.due p := by
    show ((lastOf p t.toChime).map ChimeEvent.leaves).getD t.chd.requests[p] = _
    rw [hcalls, hr]
    rfl
  have hrem : t.gauges.rem = s.gauges.rem := (congrArg Gauges.rem h :)
  rw [hdue, hrem]
  exact hs p

/-- A pattern or a test that goes on keeps the law of the grant. -/
theorem Chd.whole_of_same {c d : Chd} (h : c.whole) (hg : d.grant = c.grant) (hr : d.requests = c.requests)
    (ha : d.alert.isSome = c.alert.isSome) (ht : d.test.isSome = c.test.isSome) : d.whole := by
  obtain ⟨h1, h2, h3, h4⟩ := h
  refine ⟨by rw [hg, ha]; exact h1, by rw [hg, ht]; exact h2, by rw [hg, hr]; exact h3, fun e => ?_⟩
  obtain ⟨h5, h6⟩ := h4 (hg ▸ e)
  rw [h5] at ht
  rw [hr]
  exact ⟨Option.not_isSome_iff_eq_none.mp (by rw [ht]; decide), h6⟩

theorem Chd.raiseTest_requests (c : Chd) : c.raiseTest.requests = c.requests := by
  unfold Chd.raiseTest
  split <;> rfl

theorem Chd.raiseAlert_requests (c : Chd) : c.raiseAlert.requests = c.requests := by
  unfold Chd.raiseAlert
  split <;> rfl

theorem Chd.withdrawAlert_requests (c : Chd) : c.withdrawAlert.requests = c.requests := by
  unfold Chd.withdrawAlert
  split <;> rfl

/-! ### The power states (R168 to R184) -/

/-- With the ignition off no request is due, so none is lost where CHD is cleared (R149, R154). -/
theorem Gauges.due_none_of_off {g h : Gauges} (hr : g.requestsKept) (hoff : ∀ p, (g.rem p).state = .off)
    (hrem : h.rem = g.rem) (hcalls : h.toChime = g.toChime) (hchd : h.chd = Chd.reset) : h.requestsKept := by
  have silent : ∀ p, (g.rem p).sounding = false := fun p => by
    unfold Reminder.sounding
    rw [hoff p]
    rfl
  intro p
  have hp := (hr p).trans (silent p)
  rw [hrem, silent p]
  unfold Gauges.due at hp ⊢
  rw [hcalls, hchd]
  cases e : lastOf p g.toChime with
  | none =>
    show (Chd.reset.requests[p]).isSome = false
    rw [show Chd.reset.requests[p] = none from replicate_get _ p]
    rfl
  | some x => rwa [e] at hp

/-- Entry to SLEEP with the ignition off (R183). -/
theorem State.enterSleep_holds {s : State} (h : s.gauges.ignitionKept → s.pmg.ignition = false) :
    Holds s s.enterSleep := by
  refine ⟨fun _ => ⟨fun e => absurd rfl e, ?_, List.nodup_nil⟩, fun hi => ?_, id, fun _ => Chd.reset_whole,
    fun hi hr => ?_⟩
  · exact iff_of_false (fun e : Power.sleep = .parkWatch => by cases e) (fun e : false = true => by cases e)
  · have ⟨_, _, hoff⟩ := hi
    exact ⟨fun _ => h hi, fun e : false = true => (by cases e), hoff⟩
  · have ⟨_, _, hoff⟩ := hi
    exact Gauges.due_none_of_off hr (hoff (h hi)) rfl rfl rfl

theorem State.watchCandidates_nodup (s : State) : s.watchCandidates.Nodup := nodup_positions.filter _

/-- Entry to PARK_WATCH with the ignition off and a filled watch set (R174). -/
theorem State.enterWatch_holds {s : State} {set : List Pos} (h : s.gauges.ignitionKept → s.pmg.ignition = false)
    (hn : set.Nodup) : Holds s (s.enterWatch set) := by
  refine ⟨fun _ => ⟨fun _ => rfl, iff_of_true rfl rfl, hn⟩, fun hi => ?_, id, id, fun _ => id⟩
  have ⟨_, _, hoff⟩ := hi
  exact ⟨fun _ => h hi, fun e : false = true => (by cases e), hoff⟩

/-- PMG leaves RUN with the ignition off (R174). -/
theorem State.formWatch_calm {s : State} (h : s.gauges.ignitionKept → s.pmg.ignition = false) : Calm s s.formWatch := by
  unfold State.formWatch
  split
  · exact ⟨State.enterSleep_holds h, id, fun _ e => by cases e⟩
  · rename_i hw
    exact ⟨State.enterWatch_holds h s.watchCandidates_nodup, id, fun _ _ => hw⟩

/-- Both entries stop the run-down and drop the sleep request, so dropping them before changes nothing (R172, R173). -/
theorem State.formWatch_gauges {s : State} {m : Pmg}
    (h : m = { s.pmg with runDown := m.runDown, sleepReq := m.sleepReq }) :
    ({ s with pmg := m } : State).formWatch.gauges = s.formWatch.gauges := by
  rw [h]
  by_cases hw : s.watchCandidates = []
  · rw [State.formWatch_empty hw, State.formWatch_empty (by exact hw)]
    rfl
  · rw [State.formWatch_filled hw, State.formWatch_filled (by exact hw)]
    rfl

/-- An entry to RUN out of STARTING and out of SLEEP, the run-down started where the ignition is off (R171, R184). -/
theorem Calm.enterRun {s t : State} (hs : s.pmg.power = .starting ∨ s.pmg.power = .sleep) (on : Bool)
    (h : t.gauges = { s.gauges with power := .run, ignition := on, runDown := !on }) : Calm s t := by
  obtain ⟨hwatch, hrun⟩ : s.gauges.power ≠ .parkWatch ∧ s.gauges.power ≠ .run := by
    show s.pmg.power ≠ _ ∧ s.pmg.power ≠ _
    rcases hs with e | e <;> rw [e] <;> decide
  have hpow : t.pmg.power = .run := (congrArg Gauges.power h :)
  have hchd : t.chd = s.chd := (congrArg Gauges.chd h :)
  have hcalls : t.toChime = s.toChime := (congrArg Gauges.toChime h :)
  refine ⟨⟨fun ⟨h1, h2, h3⟩ => ?_, fun ⟨h1, h2, h3⟩ => ?_, fun hp => ?_, hchd ▸ id, fun _ hr => ?_⟩, hcalls ▸ id,
    fun _ e => by rw [hpow] at e; cases e⟩ <;> rw [h]
  · exact ⟨fun e => absurd (h1 e) hwatch,
      iff_of_false (fun e : Power.run = .parkWatch => by cases e) fun e => hwatch (h2.mpr e), h3⟩
  · refine ⟨fun e => absurd rfl e, fun e => ⟨rfl, ?_⟩, fun _ => h3 (h1 hrun)⟩
    simpa using e
  · exact hp
  · exact hr

/-- The return to RUN from PARK_WATCH as the ignition comes on (R182). -/
theorem Holds.returnToRun {s t : State} (h : t.gauges = { s.gauges with
      power := .run, ignition := true, runDown := false, sub := false, watchSet := [], chd := s.chd.withdrawAlert }) :
    Holds s t := by
  have hchd : t.chd = s.chd.withdrawAlert := (congrArg Gauges.chd h :)
  refine ⟨fun _ => ?_, fun _ => ?_, fun hp => ?_, fun hw => hchd ▸ Chd.withdrawAlert_whole hw, fun _ hr p => ?_⟩ <;> rw [h]
  · exact ⟨fun e => absurd rfl e,
      iff_of_false (fun e : Power.run = .parkWatch => by cases e) (fun e : false = true => by cases e), List.nodup_nil⟩
  · exact ⟨fun e => absurd rfl e, fun e => (by cases e), fun e => (by cases e)⟩
  · exact hp
  · have hq := hr p
    unfold Gauges.due at hq ⊢
    show (_ : Option Tone).isSome = _
    rw [Chd.withdrawAlert_requests]
    exact hq

theorem State.startBlocks_gauges (s : State) : s.startBlocks.gauges = s.gauges := by
  refine (State.requestScan_gauges _).trans ?_
  unfold State.gauges
  dsimp only
  rw [Pnd.enterRun_image]

theorem Pmg.startRunDown_isSome (m : Pmg) : m.startRunDown.runDown.isSome = !m.ignition := by
  unfold Pmg.startRunDown
  cases m.ignition <;> rfl

/-- The run-down at an entry to RUN runs where the ignition is off (R172). -/
theorem State.startRunDown_gauges (s : State) :
    (s.modPmg Pmg.startRunDown).gauges = { s.gauges with runDown := !s.pmg.ignition } :=
  congrArg (fun b => { s.gauges with runDown := b }) (Pmg.startRunDown_isSome s.pmg)

theorem State.wake_gauges (s : State) (add : Causes → Causes) :
    (s.wake add).gauges = { s.gauges with power := .run, runDown := !s.pmg.ignition } :=
  (State.startBlocks_gauges _).trans (State.startRunDown_gauges
    (s.leaveSleep.modPmg fun m => { m with power := .run, causes := add m.causes, wakenoteOwed := true }))

theorem State.wake_calm {s : State} (add : Causes → Causes) (h : s.pmg.power = .sleep) : Calm s (s.wake add) :=
  .enterRun (.inr h) s.pmg.ignition (s.wake_gauges add)

theorem State.loadComplete_calm {s : State} (ign door : Bool) (h : s.pmg.power = .starting) :
    Calm s (s.loadComplete ign door) :=
  .enterRun (.inl h) ign <| (State.startBlocks_gauges _).trans (State.startRunDown_gauges
    (s.modPmg fun m => { m with power := .run, ignition := ign, doorOpen := door, wakenoteOwed := true }))

/-! ### The ignition (R169, R172, R182, R184) -/

/-- The ignition on in RUN keeps the laws before the evaluation as well as after it (R169). -/
theorem State.ignitionOnInRun_holds {s : State} (h : s.pmg.power = .run) : Holds s s.ignitionOnInRun := by
  refine Holds.trans (t := s.modPmg fun m => { m with ignition := true, runDown := none, sleepReq := false }) ?_
    (State.evalAll_follows _).holds
  exact ⟨id, fun _ => ⟨fun e => absurd h e, fun e => (by cases e), fun e => (by cases e)⟩, id, id, fun _ => id⟩

/-- An evaluation of every position with the ignition off leaves every reminder OFF (R138, R154). -/
theorem State.evalAll_off {v : State} (h : v.pmg.ignition = false) (p : Pos) :
    v.evalAll.positions[p].rem.state = .off := by
  obtain ⟨-, -, hview⟩ := v.evalAll_spec
  generalize v.evalAll = t at hview
  refine (congrArg (fun x : PosView => x.record.rem.state) (hview p)).trans ?_
  exact evaluate_off h _

/-- The ignition off in RUN: the evaluation leaves every reminder OFF (R154, R169, R172). -/
theorem State.ignitionOffInRun_holds {s : State} (h : s.pmg.power = .run) : Holds s s.ignitionOffInRun := by
  have hgauges := (s.modPmg fun m => { m with ignition := false, moving := false }).startRunDown_gauges
  unfold State.ignitionOffInRun
  generalize hv : (s.modPmg fun m => { m with ignition := false, moving := false }.startRunDown) = v
  replace hgauges : v.gauges = { s.gauges with ignition := false, runDown := true } := by rw [← hv]; exact hgauges
  have hchd : v.chd = s.chd := (congrArg Gauges.chd hgauges :)
  have hign : v.pmg.ignition = false := (congrArg Gauges.ignition hgauges :)
  have hpow : v.pmg.power = .run := ((congrArg Gauges.power hgauges).trans h :)
  have hfollows := v.evalAll_follows
  have hoff := State.evalAll_off hign
  generalize v.evalAll = t at hfollows hoff
  have hholds := hfollows.holds
  have hpow' : t.pmg.power = .run := (State.power_of_around hfollows.around).trans hpow
  have hign' : t.pmg.ignition = false := (State.ignition_of_around hfollows.around).trans hign
  refine ⟨fun hw => hholds.watch (hgauges ▸ hw), fun _ => ⟨fun e => absurd hpow' e, fun _ => ⟨hpow', hign'⟩,
    fun _ => hoff⟩, fun hp => hholds.panel (hgauges ▸ hp), fun hw => hholds.chime (hchd ▸ hw), fun _ hr p => ?_⟩
  have hs := hr p
  rw [show s.gauges.due p = v.gauges.due p by rw [hgauges]; rfl,
    show s.gauges.rem = v.gauges.rem by rw [hgauges]] at hs
  show (((lastOf p t.toChime).map ChimeEvent.leaves).getD t.chd.requests[p]).isSome = _
  rw [show t.chd = v.chd from (congrArg State.chd hfollows.around :)]
  exact (hfollows.view p).request _ hs

theorem State.returnToRun_gauges (s : State) : s.returnToRun.gauges = { s.gauges with
    power := .run, runDown := false, sub := false, watchSet := [], chd := s.chd.withdrawAlert } := by
  refine (State.requestScan_gauges _).trans ?_
  unfold State.gauges
  dsimp only
  rw [Pnd.enterRun_image]
  rfl

/-- A change of the ignition in every power state; off outside RUN is none under the law of the ignition (R169). -/
theorem State.ignitionChange_holds {s : State} {on : Bool} (hon : on ≠ s.pmg.ignition) :
    Holds s (s.ignitionChange on) := by
  unfold State.ignitionChange
  split
  · exact .refl
  · exact State.ignitionOnInRun_holds ‹_›
  · exact State.ignitionOffInRun_holds ‹_›
  · have h : Holds s (s.setIgnition true).returnToRun := .returnToRun (State.returnToRun_gauges _)
    exact h.trans (State.evalAll_follows _).holds
  · rename_i hp
    have h : Calm s ((s.setIgnition true).wake fun c => { c with ign := true }) :=
      .enterRun (.inr hp) true (State.wake_gauges _ _)
    exact h.toHolds.trans (State.evalAll_follows _).holds
  · rename_i hrun
    have hi : s.pmg.ignition = true := by cases e : s.pmg.ignition <;> simp_all
    refine ⟨id, fun ⟨h1, _, _⟩ => ?_, id, id, fun _ => id⟩
    exact absurd (hi.symm.trans (h1 hrun)) (by decide)

/-! ### The resets (R171, R199) -/

/-- A state with every reminder, glyph and request at its reset value and no watch keeps every law (R168, R199). -/
theorem Calm.fresh {s t : State} {power : Power} {on run : Bool}
    (hp : power = .run ∧ run = !on ∨ power = .starting ∧ on = false ∧ run = false)
    (h : t.gauges = { power := power, sub := false, ignition := on, runDown := run, watchSet := []
                      rem := fun _ => Reminder.reset, image := Vector.replicate 16 .dark, chd := Chd.reset
                      toChime := [] }) : Calm s t := by
  have hpow : t.pmg.power = power := (congrArg Gauges.power h :)
  have hchd : t.chd = Chd.reset := (congrArg Gauges.chd h :)
  have hcalls : t.toChime = [] := (congrArg Gauges.toChime h :)
  have hne : power ≠ .parkWatch := by rcases hp with ⟨e, -⟩ | ⟨e, -⟩ <;> rw [e] <;> decide
  refine ⟨⟨fun _ => ?_, fun _ => ?_, fun _ p => ?_, fun _ => hchd ▸ Chd.reset_whole, fun _ _ p => ?_⟩, fun _ => hcalls,
    fun _ e => absurd (hpow.symm.trans e) hne⟩ <;> rw [h]
  · exact ⟨fun e => absurd rfl e, iff_of_false hne (fun e : false = true => by cases e), List.nodup_nil⟩
  · refine ⟨fun e => ?_, fun e => ?_, fun _ _ => rfl⟩
    · obtain ⟨-, hoff, -⟩ := hp.resolve_left fun x => e x.1
      exact hoff
    · rcases hp with ⟨h1, h2⟩ | ⟨-, -, h2⟩
      · exact ⟨h1, by simpa using h2.symm.trans e⟩
      · exact absurd (h2.symm.trans e) (by decide)
  · exact replicate_get _ p
  · show (Chd.reset.requests[p]).isSome = false
    rw [show Chd.reset.requests[p] = none from replicate_get _ p]
    rfl

theorem replicate_reset_rem : (fun p : Pos => (Vector.replicate 16 Position.reset)[p].rem) = fun _ => Reminder.reset :=
  funext fun p => congrArg Position.rem (replicate_get Position.reset p)

theorem State.hardReset_calm (s : State) : Calm s s.hardReset := by
  refine .fresh (.inr ⟨rfl, rfl, rfl⟩) ?_
  rw [← replicate_reset_rem]
  rfl

theorem State.softReset_holds (s : State) (ign door : Bool) : Holds s (s.softReset ign door) := by
  refine (Calm.fresh (.inl ⟨rfl, rfl⟩) (on := ign) ?_).toHolds
  unfold State.softReset
  generalize (if s.pmg.power = .sleep then s.leaveSleep else s : State) = u
  dsimp only
  refine (State.startBlocks_gauges _).trans ?_
  rw [← replicate_reset_rem, ← Pmg.startRunDown_isSome { u.pmg.endWatch with ignition := ign }]
  rfl

/-! ### The end of a step (R156, R176) -/

theorem deliver_gauges (s : State) :
    (deliver s).gauges = { s.gauges with chd := (deliver s).chd, toChime := [] } := by
  conv_lhs => rw [deliver_shape]
  rfl

theorem deliver_holds (s : State) : Holds s (deliver s) := by
  have h := deliver_gauges s
  obtain ⟨-, -, -, -, hwhole, hreq⟩ := deliver_spec s
  refine ⟨fun hw => ?_, fun hi => ?_, fun hp => ?_, hwhole, fun _ hr p => ?_⟩
  · rw [h]; exact hw
  · rw [h]; exact hi
  · rw [h]; exact hp
  · rw [h]
    show ((deliver s).chd.requests[p]).isSome = _
    rw [hreq]
    exact hr p

/-- At the end of a step nothing waits any more. -/
theorem Calm.settle {s t : State} (h : Holds s t) : Calm s t.settle := by
  have h1 : Holds s (deliver t) := h.trans (deliver_holds t)
  have hcalls : (deliver t).toChime = [] := (deliver_spec t).1
  unfold State.settle State.sleepIfEmpty
  generalize deliver t = u at h1 hcalls
  split
  · rename_i hp
    have hoff : u.gauges.ignitionKept → u.pmg.ignition = false := fun hi => hi.1 fun e => by
      cases hp.1.symm.trans e
    exact ⟨h1.trans (State.enterSleep_holds hoff), fun _ => hcalls, fun _ e => by cases e⟩
  · rename_i hn
    exact ⟨h1, fun _ => hcalls, fun _ hp hw => hn ⟨hp, hw⟩⟩

end Sys2Proof.Machine
end

section
/-! SUPPORT. Frames, table writes and the store over the gauges. -/

namespace Sys2Proof.Machine

/-! ### Frames and table writes (R190, R193) -/

/-- A relation between the states before and after an action that does not see what leaves the gauges alone. -/
structure Tracks (R : State → State → Prop) : Prop where
  of_gauges : ∀ {s t : State}, t.gauges = s.gauges → R s t
  trans : ∀ {s t u : State}, R s t → R t u → R s u

theorem tracks_holds : Tracks Holds := ⟨.of_gauges, .trans⟩

theorem tracks_calm : Tracks Calm := ⟨.of_gauges, .trans⟩

section
variable {R : State → State → Prop}

/-- A frame that reaches its owner, or is answered before (R190). -/
theorem Tracks.frame (h : Tracks R) {own : State → State} (ho : ∀ s, R s (own s)) (s : State) (kind tag : Byte)
    (fits : Bool) : R s (s.takeFrame kind tag fits own) := by
  unfold State.takeFrame
  dsimp only
  split
  · exact h.of_gauges rfl
  split
  · exact h.of_gauges rfl
  split
  · exact h.of_gauges rfl
  split
  · exact h.of_gauges rfl
  · exact h.trans (h.of_gauges (t := s.rxHunt) rfl) (ho _)

/-- What an owner stores keeps a relation. -/
def OwnTracks (R : State → State → Prop) (own : Nat → List Byte → State → Except Status State) : Prop :=
  ∀ i bs s s', own i bs s = .ok s' → R s s'

/-- A write that its owner stores, or that is refused (R193). -/
theorem Tracks.write (h : Tracks R) {own : Nat → List Byte → State → Except Status State} (ho : OwnTracks R own)
    (s : State) (t : TableId) (tag index : Byte) (entry : List Byte) : R s (s.takeWrite t tag index entry own) := by
  refine h.frame (fun s => ?_) s _ _ _
  unfold State.writeTable
  dsimp only
  split
  · exact h.of_gauges rfl
  split
  · exact h.of_gauges rfl
  split
  · exact h.of_gauges rfl
  split
  · exact h.of_gauges rfl
  · rename_i hok
    exact h.trans (ho _ _ _ _ hok) (h.of_gauges rfl)

theorem ownNode_tracks (h : Tracks R) : OwnTracks R ownNode := fun i bs s s' ho => h.of_gauges <| by
  unfold ownNode at ho
  dsimp only at ho
  split at ho
  · cases ho
  split at ho <;> cases ho
  rfl

/-- A rule written disarms it everywhere and leaves the reminders (R50). -/
theorem ownRule_tracks (h : Tracks R) : OwnTracks R ownRule := fun i bs s s' ho => h.of_gauges <| by
  unfold ownRule at ho
  dsimp only at ho
  split at ho
  · cases ho
  split at ho <;> cases ho
  have hrem : ∀ p : Pos, (Vector.ofFn fun p => s.positions[p].disarm (Fin.ofNat 24 i))[p].rem = s.positions[p].rem :=
    fun p => by
      rw [Fin.getElem_fin, Vector.getElem_ofFn]
      rfl
  exact congrArg (fun f => { s.gauges with rem := f }) (funext hrem)

theorem ownRing_tracks (h : Tracks R) (g : Seg) : OwnTracks R (ownRing g) := fun i bs s s' ho => h.of_gauges <| by
  unfold ownRing at ho
  split at ho <;> cases ho
  exact s.modSeg_gauges g _

theorem ownTiming_tracks (h : Tracks R) : OwnTracks R ownTiming := fun i bs s s' ho => h.of_gauges <| by
  unfold ownTiming at ho
  split at ho <;> cases ho
  rfl

theorem ownPanelcfg_tracks (h : Tracks R) : OwnTracks R ownPanelcfg := fun i bs s s' ho => h.of_gauges <| by
  unfold ownPanelcfg at ho
  split at ho <;> cases ho
  rfl

theorem ownProtect_tracks (h : Tracks R) : OwnTracks R ownProtect := fun i bs s s' ho => h.of_gauges <| by
  cases ho
  rfl

end

theorem ownSeatmap_holds : OwnTracks Holds ownSeatmap := by
  intro i bs s s' h
  unfold ownSeatmap at h
  dsimp only at h
  split at h
  · cases h
  split at h <;> cases h
  exact (Holds.ite (State.clearIfSeated_follows ..).holds .refl).trans (.of_gauges rfl)

theorem ownPoscfg_holds : OwnTracks Holds ownPoscfg := by
  intro i bs s s' h
  unfold ownPoscfg at h
  dsimp only at h
  split at h <;> cases h
  refine .trans (.of_gauges ?_) (State.evalAt_follows _ _).holds
  exact State.setPos_gauges (s := { s with poscfg := _ }) rfl

theorem ownProfile_holds : OwnTracks Holds ownProfile := by
  intro i bs s s' h
  unfold ownProfile at h
  dsimp only at h
  split at h
  · cases h
  · rw [← Except.ok.inj h]
    exact .after (State.evalProfile_follows _ _).holds rfl

theorem State.writeSegCfg_holds (s : State) (g : Seg) (c : SegCfg) : Holds s (s.writeSegCfg g c) := by
  have h := s.modSeg_holds g fun x => x.storeCfg c
  unfold State.writeSegCfg
  dsimp only
  refine Holds.trans ?_ (State.modSeg_holds _ g Segment.checkWalk)
  exact .ite (h.trans (State.modSeg_holds ..)) (.ite (h.trans (State.stopSegment_holds ..)) h)

theorem ownSegcfg_holds : OwnTracks Holds ownSegcfg := by
  intro i bs s s' h
  unfold ownSegcfg at h
  split at h <;> cases h
  exact s.writeSegCfg_holds _ _

theorem ownLocalcfg_holds : OwnTracks Holds ownLocalcfg := by
  intro i bs s s' h
  unfold ownLocalcfg at h
  dsimp only at h
  split at h
  · cases h
  · rename_i c _
    cases h
    have h0 : Holds s { s with lsu := { s.lsu with cfg := c } } := .of_gauges rfl
    have h1 := h0.trans (Holds.ite (c := c.fitted0 = true) .refl (State.clearIfSeated_follows _ 0).holds)
    exact h1.trans (.ite .refl (State.clearIfSeated_follows _ 1).holds)

theorem State.takeWriteOf_holds (s : State) (t : TableId) (tag index : Byte) (entry : List Byte) :
    Holds s (s.takeWriteOf t tag index entry) := by
  cases t
  · exact tracks_holds.write (ownNode_tracks tracks_holds) ..
  · exact tracks_holds.write ownSeatmap_holds ..
  · exact tracks_holds.write ownPoscfg_holds ..
  · exact tracks_holds.write (ownRule_tracks tracks_holds) ..
  · exact tracks_holds.write ownProfile_holds ..
  · exact tracks_holds.write (ownRing_tracks tracks_holds .a) ..
  · exact tracks_holds.write (ownRing_tracks tracks_holds .b) ..
  · exact tracks_holds.write ownSegcfg_holds ..
  · exact tracks_holds.write ownLocalcfg_holds ..
  · exact tracks_holds.write (ownTiming_tracks tracks_holds) ..
  · exact tracks_holds.write (ownPanelcfg_tracks tracks_holds) ..
  · exact tracks_holds.write (ownProtect_tracks tracks_holds) ..

/-! ### Requests, vehicle records and sends -/

theorem State.takeVehicle_holds (s : State) (b : Byte) : Holds s (s.takeVehicle b) := by
  unfold State.takeVehicle
  dsimp only
  generalize hu : (s.modPmg fun m => m.vehicle (b.getLsbD 0) (b.getLsbD 1)) = u
  have h0 : Holds s u := .of_gauges (by rw [← hu]; rfl)
  have h1 : Holds s (if u.pmg.moving ≠ s.pmg.moving then u.evalAll else u) :=
    h0.trans (.ite u.evalAll_follows.holds .refl)
  exact .ite (h1.trans (.of_gauges (State.dwellReview_gauges _))) h1

theorem State.request_gauges (s : State) (tag slotByte : Byte) (body : List Byte) :
    (s.request tag slotByte body).gauges = s.gauges := by
  unfold State.request
  split
  · rfl
  dsimp only
  split
  · split
    exacts [rfl, s.modSeg_gauges ..]
  · rfl

theorem State.stageEntry_gauges (s : State) (tag table index : Byte) :
    (s.stageEntry tag table index).gauges = s.gauges := by
  unfold State.stageEntry
  split
  · rfl
  · split
    · rfl
    split <;> rfl

theorem State.readTable_gauges (s : State) (tag table index : Byte) : (s.readTable tag table index).gauges = s.gauges := by
  unfold State.readTable
  split
  · rfl
  · split <;> rfl

theorem State.cancelCommit_gauges (s : State) : s.cancelCommit.gauges = s.gauges := State.fillReserved_gauges ..

theorem State.clearFlags_gauges {s t : State} {block mask : Byte} {code : Nat}
    (h : s.clearFlags block mask = some (t, code)) : t.gauges = s.gauges := by
  unfold State.clearFlags at h
  dsimp only at h
  split at h <;> cases h <;> rfl

/-- An acknowledged alert leaves ALERTING for SILENCED and withdraws the alert's request alone (R180). -/
theorem State.silence_calm {s : State} (h : s.pmg.sub = some .alerting) : Calm s s.silence := by
  refine .chd ?_ Chd.withdrawAlert_whole s.chd.withdrawAlert_requests
  unfold State.gauges
  rw [h]
  rfl

/-- The accepted SLEEPREQ acts with the ignition off (R173). -/
theorem State.actSleepReq_holds (s : State) : Holds s s.actSleepReq := by
  unfold State.actSleepReq
  split
  · rename_i h
    obtain ⟨-, -, hoff⟩ := h
    exact (State.formWatch_calm fun _ => hoff).toHolds.trans (.of_gauges (State.formWatch_gauges rfl))
  · exact .refl

theorem State.sendDone_holds (s : State) (act : SendAction) (ign door : Bool) : Holds s (s.sendDone act ign door) := by
  unfold State.sendDone
  split
  · exact .refl
  · refine .after (t := s.freeHead) ?_ rfl
    exact .ite (State.softReset_holds _ ign door) (.ite (State.actSleepReq_holds _) .refl)
  · exact s.modSeg_holds ..
  · exact .of_gauges rfl

/-! ### The timers of the park watch (R172, R175 to R181) -/

theorem State.watchInterval_gauges (s : State) : s.watchInterval.gauges = s.gauges := by
  unfold State.watchInterval
  dsimp only
  split
  exacts [State.requestScan_gauges _, rfl]

/-- The run-down runs with the ignition off alone (R172). -/
theorem State.rundown_calm {s : State} (h : s.pmg.runDown.isSome = true) :
    Calm s (s.modPmg fun m => { m with runDown := none, sleepReq := false }).formWatch := by
  refine (State.formWatch_calm fun ⟨_, hrunDown, _⟩ => ?_).trans (.of_gauges (State.formWatch_gauges rfl))
  obtain ⟨-, hoff⟩ := hrunDown h
  exact hoff

/-- The end of the dwell raises the alert (R178). -/
theorem State.enterAlerting_calm {s : State} (h : s.pmg.sub = some .watching) : Calm s s.enterAlerting := by
  refine .chd ?_ Chd.raiseAlert_whole s.chd.raiseAlert_requests
  unfold State.gauges
  rw [h]
  rfl

/-- The end of the watch enters SLEEP, with the ignition off in PARK_WATCH (R181, R183). -/
theorem State.watchExpired_calm {s : State} (h : s.pmg.power = .parkWatch) : Calm s s.enterSleep := by
  refine ⟨State.enterSleep_holds fun hi => hi.1 fun e => ?_, id, fun _ e => by cases e⟩
  cases h.symm.trans e

end Sys2Proof.Machine
end

section
/-! SUPPORT. Every command keeps the laws of watch, ignition, panel and chime, command by command. -/

namespace Sys2Proof.Machine

/-- What a command answers keeps the laws and leaves nothing waiting. -/
def StepCalm (s : State) (r : StepResult) : Prop := ∀ t, r = .next t → Calm s t

theorem StepCalm.next {s t : State} (h : Calm s t) : StepCalm s (.next t) := by
  rintro u ⟨⟩; exact h

theorem StepCalm.of_gauges {s t : State} (h : t.gauges = s.gauges) : StepCalm s (.next t) := .next (.of_gauges h)

theorem StepCalm.ite {s t u : State} {c : Prop} [Decidable c] (ht : c → Calm s t) (hu : Calm s u) :
    StepCalm s (.next (if c then t else u)) := by
  split
  exacts [.next (ht ‹_›), .next hu]

theorem StepCalm.frame {own : State → State} (h : ∀ s, Calm s (own s)) (s : State) (kind tag : Byte) (fits : Bool) :
    StepCalm s (.next (s.takeFrame kind tag fits own)) :=
  .next (tracks_calm.frame h s kind tag fits)

theorem execTblwrNode_calm (tag : Byte) (payload : List Byte) (s : State) : StepCalm s (execTblwrNode tag payload s) := by
  unfold execTblwrNode
  refine .next (Calm.settle ?_)
  split
  · split
    · exact s.takeWriteOf_holds ..
    · rename_i t i _ _ _
      exact tracks_holds.frame (own := fun s1 => s1.badTable.refuseTable tag Kind.tblwr t i .table)
        (fun _ => .of_gauges rfl) s ..
  · exact tracks_holds.frame (fun _ => .refl) s ..

theorem exec_calm (c : Instr) (s : State) : StepCalm s (exec c s) := by
  cases c
  case hardReset => exact .next s.hardReset_calm
  case loadComplete ign door => exact .ite (State.loadComplete_calm ign door) .refl
  case ignitionChange on =>
    refine .next ?_
    split
    exacts [.refl, Calm.settle (State.ignitionChange_holds ‹_›)]
  case doorChange ajar =>
    unfold exec execDoorChange
    refine .ite (fun _ => .refl) ?_
    split
    · exact .refl
    · exact .of_gauges rfl
    · exact .of_gauges (State.dwellReview_gauges (s.setDoor ajar))
    · rename_i hp
      split
      · exact Calm.after (State.wake_calm (s := s.setDoor ajar) _ hp) rfl
      · exact .of_gauges rfl
  case buckleWake => exact .ite (fun h => State.wake_calm _ h.1) .refl
  case trunkWake => exact .ite (fun h => State.wake_calm _ h.1) .refl
  case rxHuntResume => exact .ite (fun _ => .of_gauges rfl) .refl
  case frameGapAbandon => exact .ite (fun _ => .of_gauges rfl) .refl
  case lengthAbandon => exact .ite (fun _ => .of_gauges rfl) .refl
  case trunkCheckFail => exact .ite (fun _ => .of_gauges rfl) .refl
  case unknownKind =>
    unfold exec execUnknownKind
    refine .ite (fun _ => ?_) .refl
    dsimp only
    split <;> exact .of_gauges rfl
  case vehstat payload =>
    unfold exec execVehstat
    refine .ite (fun _ => .refl) ?_
    split
    · exact .of_gauges rfl
    split
    · exact Calm.settle (.after (State.takeVehicle_holds _ _) rfl)
    · exact .of_gauges rfl
  case tblwrNode tag payload => exact execTblwrNode_calm tag payload s
  case tblwrSeatmap => exact .next (Calm.settle (tracks_holds.write ownSeatmap_holds ..))
  case tblwrPoscfg => exact .next (Calm.settle (tracks_holds.write ownPoscfg_holds ..))
  case tblwrRule => exact .next (tracks_calm.write (ownRule_tracks tracks_calm) ..)
  case tblwrProfile => exact .next (Calm.settle (tracks_holds.write ownProfile_holds ..))
  case tblwrRingA => exact .next (tracks_calm.write (ownRing_tracks tracks_calm .a) ..)
  case tblwrRingB => exact .next (tracks_calm.write (ownRing_tracks tracks_calm .b) ..)
  case tblwrSegcfg => exact .next (Calm.settle (tracks_holds.write ownSegcfg_holds ..))
  case tblwrLocalcfg => exact .next (Calm.settle (tracks_holds.write ownLocalcfg_holds ..))
  case tblwrTiming => exact .next (tracks_calm.write (ownTiming_tracks tracks_calm) ..)
  case tblwrPanelcfg => exact .next (tracks_calm.write (ownPanelcfg_tracks tracks_calm) ..)
  case tblwrProtect => exact .next (tracks_calm.write (ownProtect_tracks tracks_calm) ..)
  case tblrd => exact .frame (fun s => .of_gauges (s.readTable_gauges ..)) s _ _ _
  case posqry =>
    refine .frame (fun s => ?_) s _ _ _
    split <;> exact .of_gauges rfl
  case nodereq => exact .frame (fun s => .of_gauges (s.request_gauges ..)) s _ _ _
  case stage => exact .frame (fun s => .of_gauges (s.stageEntry_gauges ..)) s _ _ _
  case commit =>
    refine .frame (fun s => ?_) s _ _ _
    split <;> exact .of_gauges rfl
  case nvcancel =>
    refine .frame (fun s => ?_) s _ _ _
    split
    · exact .of_gauges rfl
    · exact .of_gauges s.cancelCommit_gauges
    · exact .of_gauges rfl
  case nverase =>
    refine .frame (fun s => ?_) s _ _ _
    split <;> exact .of_gauges rfl
  case protload =>
    refine .frame (fun s => ?_) s _ _ _
    split <;> exact .of_gauges rfl
  case callock =>
    refine .frame (fun s => ?_) s _ _ _
    split
    · exact .of_gauges rfl
    · split <;> exact .of_gauges rfl
  case sleepreq =>
    refine .frame (fun s => ?_) s _ _ _
    split <;> exact .of_gauges rfl
  case alertack =>
    refine .frame (fun s => ?_) s _ _ _
    split
    · exact (State.silence_calm ‹_›).trans (.of_gauges rfl)
    · exact .of_gauges rfl
    · exact .of_gauges rfl
  case chimetst =>
    refine .frame (fun s => ?_) s _ _ _
    exact .chd rfl Chd.raiseTest_whole s.chd.raiseTest_requests
  case paneltst =>
    refine .frame (fun s => ?_) s _ _ _
    exact .of_gauges rfl
  case clrflag tag payload =>
    refine .frame (fun s => ?_) s _ _ _
    split
    · rename_i h
      exact Calm.trans (.of_gauges (State.clearFlags_gauges h)) (.of_gauges rfl)
    · exact .of_gauges rfl
  case identq =>
    refine .frame (fun s => ?_) s _ _ _
    exact .of_gauges rfl
  case softrst =>
    refine .frame (fun s => ?_) s _ _ _
    exact .of_gauges rfl
  case sendReply =>
    refine .next ?_
    split <;> exact .of_gauges rfl
  case sendAlert =>
    refine .next ?_
    split <;> exact .of_gauges rfl
  case sendNodeans =>
    refine .next ?_
    split <;> exact .of_gauges rfl
  case sendWakenote =>
    refine .next ?_
    split <;> exact .of_gauges rfl
  case sendPosnote =>
    refine .next ?_
    split
    · exact .of_gauges (State.setPos_gauges (s := s.startSend ..) rfl)
    · exact .refl
  case sendSeatnote =>
    refine .next ?_
    split <;> exact .of_gauges rfl
  case sendMirror =>
    refine .next ?_
    split <;> exact .of_gauges rfl
  case sendComplete ign door =>
    refine .next ?_
    split
    · rename_i x _
      exact Calm.settle (.after (State.sendDone_holds _ x.action ign door) rfl)
    · exact .refl
  case spacingExpiry g => exact .of_gauges (s.modSeg_gauges g _)
  case pollStart g => exact .ite (fun _ => .of_gauges (s.pollStart_gauges g)) .refl
  case pollSent g => exact .of_gauges (s.modSeg_gauges g _)
  case segmentFrame g bytes =>
    unfold exec execSegmentFrame
    refine .ite (fun _ => ?_) .refl
    dsimp only
    split
    · exact Calm.settle (.after (State.judge_holds _ g _ bytes) (s.modSeg_gauges g _))
    · exact .of_gauges ((State.modSeg_gauges ..).trans (s.modSeg_gauges g _))
  case segmentFrameCut g =>
    unfold exec execSegmentFrameCut
    refine .ite (fun _ => ?_) .refl
    dsimp only
    split
    · exact Calm.settle (.after (State.pollMiss_holds ..) ((State.modSeg_gauges ..).trans (s.modSeg_gauges g _)))
    · exact .of_gauges ((State.modSeg_gauges ..).trans (s.modSeg_gauges g _))
  case replyWindowExpiry g =>
    refine .next ?_
    split
    · split
      exacts [Calm.settle (.after (State.pollMiss_holds ..) (s.modSeg_gauges g _)), .refl]
    · exact .refl
  case lineStuckDetect g => exact .ite (fun _ => Calm.settle (s.lineStuck_holds g)) .refl
  case probeExpiry g _ => exact .ite (fun _ => .of_gauges (s.modSeg_gauges g _)) .refl
  case scanIntervalExpiry => exact .ite (fun _ => .of_gauges (State.requestScan_gauges _)) .refl
  case conversionComplete n a b =>
    unfold exec execConversionComplete
    exact .ite (fun _ => .refl) (Calm.settle (s.conversion_holds n a b))
  case reminderTick => exact .ite (fun _ => Calm.settle (.after (State.tickAll_follows _).holds rfl)) .refl
  case alertPatternTimer =>
    exact .next (.chd rfl (fun h => Chd.whole_of_same h rfl rfl Option.isSome_map rfl) rfl)
  case chimeTestQuarter =>
    exact .next (.chd rfl (fun h => Chd.whole_of_same h rfl rfl rfl Option.isSome_map) rfl)
  case chimeTestEnd => exact .ite (fun _ => .chd rfl Chd.endTest_whole rfl) .refl
  case scanFrameStart => exact .of_gauges (State.whileScanning_gauges rfl)
  case commonSlot => exact .of_gauges (State.whileScanning_gauges (Pnd.slotStart_image _))
  case dutyEnd => exact .of_gauges (State.whileScanning_gauges rfl)
  case flashPhase => exact .of_gauges (State.whileScanning_gauges rfl)
  case panelTestExpiry => exact .of_gauges rfl
  case rundownExpiry => exact .ite (fun h => State.rundown_calm h.2) .refl
  case watchIntervalExpiry => exact .ite (fun _ => .of_gauges s.watchInterval_gauges) .refl
  case dwellTick =>
    unfold exec execDwellTick
    refine .ite (fun ⟨_, _, hsub⟩ => ?_) .refl
    have h1 : Calm s (s.modPmg fun m => { m with dwell := m.dwell + 1 }) := .of_gauges rfl
    dsimp only
    split
    exacts [h1.trans (State.enterAlerting_calm hsub), h1]
  case alertRepeatExpiry => exact .ite (fun _ => .of_gauges rfl) .refl
  case watchElapsedTick =>
    unfold exec execWatchElapsedTick
    refine .ite (fun h => ?_) .refl
    dsimp only
    split
    · exact Calm.after (State.watchExpired_calm (by exact h.1)) rfl
    · exact .of_gauges rfl
  case commitComplete same =>
    refine .next ?_
    split
    · split <;> exact .of_gauges (State.fillReserved_gauges ..)
    · exact .refl
  case eraseComplete =>
    refine .next ?_
    split
    exacts [.of_gauges (State.fillReserved_gauges ..), .refl]
  case lockComplete =>
    refine .next ?_
    split
    exacts [.of_gauges (State.fillReserved_gauges ..), .refl]
  case frameSync => exact .ite (fun _ => .of_gauges rfl) .refl
  case segmentFrameBegin g => exact .ite (fun _ => .of_gauges (s.modSeg_gauges g _)) .refl
  case segmentLineIdle g => exact .ite (fun _ => .of_gauges (s.modSeg_gauges g _)) .refl

/-- Every step keeps the laws and leaves nothing waiting. -/
theorem calm_of_step {s t : State} (h : step s = .next t) : Calm s t := by
  unfold step at h
  split at h
  · cases h; exact .refl
  · exact .after (exec_calm _ _ t h) rfl

/-! ### The statements -/

theorem State.watchWhole_iff (s : State) :
    s.watchWhole ↔ s.gauges.watchKept ∧ (s.pmg.power = .parkWatch → s.pmg.watchSet ≠ []) ∧ s.toChime = [] :=
  ⟨fun ⟨h1, h2, h3, h4⟩ => ⟨⟨h1.mpr, h2, h3⟩, h1.mp, h4⟩, fun ⟨⟨h1, h2, h3⟩, h4, h5⟩ => ⟨⟨h4, h1⟩, h2, h3, h5⟩⟩

/-- With no event on its way a request is due exactly where it stands. -/
theorem State.requestsWhole_iff (s : State) :
    s.requestsWhole ↔ s.toChime = [] ∧ s.gauges.ignitionKept ∧ s.gauges.requestsKept := by
  refine and_congr_right fun hc => and_congr_right fun _ => forall_congr' fun p => ?_
  have hdue : s.gauges.due p = s.chd.requests[p] := by
    show ((lastOf p s.toChime).map ChimeEvent.leaves).getD _ = _
    rw [hc]
    rfl
  rw [hdue]
  rfl

/-- Settles O55: command by command, the watch set, the ignition, the reminders and the glyphs move together. -/
theorem stepKeepsPowerLaws : Obligations.StepKeepsPowerLaws := by
  intro s t h
  have hc := calm_of_step h
  refine ⟨fun hw => ?_, fun ⟨hi, hp⟩ => ⟨hc.ignition hi, hc.panel hp⟩⟩
  obtain ⟨hkept, hfilled, hquiet⟩ := s.watchWhole_iff.mp hw
  exact t.watchWhole_iff.mpr ⟨hc.watch hkept, hc.filled hfilled, hc.quiet hquiet⟩

/-- Settles O56: every grant follows R157, and RME's calls to CHD stand for the ON phases. -/
theorem stepKeepsChimeLaws : Obligations.StepKeepsChimeLaws := by
  intro s t h
  have hc := calm_of_step h
  refine ⟨hc.chime, fun hr => ?_⟩
  obtain ⟨hquiet, hi, hkept⟩ := s.requestsWhole_iff.mp hr
  exact t.requestsWhole_iff.mpr ⟨hc.quiet hquiet, hc.ignition hi, hc.requests hi hkept⟩

end Sys2Proof.Machine
end

section
/-! SUPPORT. The evaluation of a reminder, test by test and state by state, and its calls to CHD (R138 to R149). -/

namespace Sys2Proof.Machine

/-! ### The four tests (R138) -/

section
variable {i : RemInputs} {r : Reminder}

theorem decided_off (h : i.ignition = false ∨ i.presence = .noSeat) : decided i = some .off := by
  unfold decided
  exact if_pos (h.imp_left fun e => by rw [e]; rfl)

/-- The first test fails at a seat with the ignition on. -/
theorem decided_of_seat (hi : i.ignition = true) (hp : i.presence ≠ .noSeat) :
    decided i =
      if i.presence = .sourceLost ∨ i.buckle = .fault then some .suspended
      else if !required i.profile i.cls then some .off
      else if i.buckle = .latched then some .belted
      else none := by
  unfold decided
  rw [if_neg]
  rintro (e | e)
  · rw [hi] at e; cases e
  · exact hp e

theorem seat_of_seated (h : i.presence = .live ∨ i.presence = .held) : i.presence ≠ .noSeat ∧ i.presence ≠ .sourceLost := by
  rcases h with e | e <;> rw [e] <;> decide

/-- The first two tests fail where the seat is fed and the buckle reads (R138). -/
theorem decided_of_seated (hi : i.ignition = true) (hs : i.presence = .live ∨ i.presence = .held)
    (hb : i.buckle ≠ .fault) :
    decided i = if !required i.profile i.cls then some .off else if i.buckle = .latched then some .belted else none := by
  obtain ⟨h1, h2⟩ := seat_of_seated hs
  rw [decided_of_seat hi h1, if_neg fun e => e.elim h2 hb]

/-- A state that the tests decide is entered with phase, ticks and bursts cleared, or kept (R138). -/
theorem evaluate_decided {st : RemState} (h : decided i = some st) :
    (evaluate i r).1 = if st = r.state then r else { state := st, phase := none, ticks := 0, bursts := 0 } := by
  unfold evaluate
  rw [h]
  dsimp only
  split <;> rfl

theorem evaluate_undecided (h : decided i = none) : evaluate i r = evaluateUnbelted i.profile i.moving r := by
  unfold evaluate
  rw [h]

end

/-! ### The entries of an unbelted position (R139, R140, R142) -/

section
variable {prof : ProfileEntry} {m : Bool} {x y r : Reminder}

/-- The audible test reads and keeps the bursts alone. -/
theorem audibleTest_congr (h : x.bursts = y.bursts) : audibleTest prof m x = audibleTest prof m y := by
  obtain ⟨_, _, _, _⟩ := x
  obtain ⟨_, _, _, _⟩ := y
  cases h
  rfl

theorem audibleTest_reminder : (audibleTest prof m r).1 =
    if prof.bursts ≤ r.bursts then r.enterQuiet
    else if prof.speedGated = false ∨ m = true then r.enterOn prof else r.expire := by
  unfold audibleTest
  simp only [Bool.not_eq_true']
  split
  · rfl
  · split <;> rfl

/-- Entry to VISUAL, passed through where its ticks are 0 (R140). -/
theorem enterVisual_eq : enterVisual prof m r =
    if prof.visual = 0 then audibleTest prof m r
    else ({ r with state := .visual, phase := none, ticks := prof.visual }, []) := by
  exact if_congr Iff.rfl (audibleTest_congr rfl) rfl

/-- Entry to GRACE, passed through where its ticks are 0 (R140). -/
theorem enterGrace_eq : enterGrace prof m r =
    if prof.grace = 0 then enterVisual prof m { r with bursts := 0 }
    else ({ r with state := .grace, phase := none, ticks := prof.grace, bursts := 0 }, []) := by
  refine if_congr Iff.rfl ?_ rfl
  rw [enterVisual_eq, enterVisual_eq]
  exact if_congr Iff.rfl (audibleTest_congr rfl) rfl

end

/-! ### The calls to CHD (R149) -/

/-- The calls of a change from `r` to `n`: leaving an ON phase withdraws, entering AUDIBLE raises (R149). -/
def callsBetween (r n : Reminder) (tone : Tone) : List ChimeCall :=
  (if r.sounding ∧ n.state ≠ .audible then [.withdraw] else []) ++
    (if r.state ≠ .audible ∧ n.state = .audible then [.raise tone] else [])

section
variable {prof : ProfileEntry} {m : Bool} {x n r : Reminder} {tone : Tone}

theorem not_sounding_of_state (h : r.state ≠ .audible) : r.sounding = false := by
  unfold Reminder.sounding
  rw [decide_eq_false h]
  rfl

theorem callsBetween_leave (h : n.state ≠ .audible) : r.leave = callsBetween r n tone := by
  unfold callsBetween Reminder.leave
  rw [if_neg fun e : r.state ≠ .audible ∧ n.state = .audible => h e.2, List.append_nil]
  exact if_congr (and_iff_left h).symm rfl rfl

theorem callsBetween_none (h : r.state ≠ .audible) (hn : n.state ≠ .audible) : [] = callsBetween r n tone := by
  rw [← callsBetween_leave hn]
  unfold Reminder.leave
  rw [not_sounding_of_state h]
  rfl

theorem callsBetween_self : [] = callsBetween r r tone := by
  unfold callsBetween
  rw [if_neg fun e : r.state ≠ .audible ∧ r.state = .audible => e.1 e.2, if_neg]
  · rfl
  · rintro ⟨hs, hn⟩
    rw [not_sounding_of_state hn] at hs
    cases hs

theorem callsBetween_raise (h : r.state ≠ .audible) (hn : n.state = .audible) :
    [.raise tone] = callsBetween r n tone := by
  unfold callsBetween
  rw [if_neg fun e : r.sounding = true ∧ n.state ≠ .audible => e.2 hn, if_pos ⟨h, hn⟩]
  rfl

theorem audibleTest_calls (h : r.state ≠ .audible) :
    (audibleTest prof m x).2 = callsBetween r (audibleTest prof m x).1 prof.tone := by
  unfold audibleTest
  split
  · exact callsBetween_none h fun e => by cases e
  split
  · exact callsBetween_raise h rfl
  · exact callsBetween_none h fun e => by cases e

theorem enterVisual_calls (h : r.state ≠ .audible) :
    (enterVisual prof m x).2 = callsBetween r (enterVisual prof m x).1 prof.tone := by
  rw [enterVisual_eq]
  split
  exacts [audibleTest_calls h, callsBetween_none h fun e => by cases e]

theorem enterGrace_calls (h : r.state ≠ .audible) :
    (enterGrace prof m x).2 = callsBetween r (enterGrace prof m x).1 prof.tone := by
  rw [enterGrace_eq]
  split
  exacts [enterVisual_calls h, callsBetween_none h fun e => by cases e]

theorem evaluateUnbelted_calls :
    (evaluateUnbelted prof m r).2 = callsBetween r (evaluateUnbelted prof m r).1 prof.tone := by
  unfold evaluateUnbelted
  split
  case h_1 h => exact enterGrace_calls (h.trans_ne (by decide))
  case h_2 h => exact enterGrace_calls (h.trans_ne (by decide))
  case h_3 h =>
    split
    exacts [enterVisual_calls (h.trans_ne (by decide)), enterGrace_calls (h.trans_ne (by decide))]
  case h_4 => exact callsBetween_self
  case h_5 h =>
    split
    exacts [audibleTest_calls (h.trans_ne (by decide)), callsBetween_self]
  case h_6 =>
    split
    · exact callsBetween_leave fun e => by cases e
    split
    · exact callsBetween_leave fun e => by cases e
    · exact callsBetween_self
  case h_7 => exact callsBetween_self

theorem evaluate_calls (i : RemInputs) (r : Reminder) :
    (evaluate i r).2 = callsBetween r (evaluate i r).1 i.profile.tone := by
  unfold evaluate
  split
  · rename_i st hst
    split
    exacts [callsBetween_self, callsBetween_leave (decided_ne_audible hst)]
  · exact evaluateUnbelted_calls

end

/-! ### The statement -/

/-- Settles O46: the four tests in their order, the table of R139 by the state before, and the calls. -/
theorem reminderEvaluation : Obligations.ReminderEvaluation := by
  intro i r n prof enters seated needed heard warned graced
  have hheard : ∀ x, (audibleTest prof i.moving x).1 = heard x := fun x => audibleTest_reminder
  have hwarned : ∀ x, (enterVisual prof i.moving x).1 = warned x := fun x => by
    rw [enterVisual_eq, apply_ite Prod.fst, hheard]
  have hgraced : (enterGrace prof i.moving r).1 = graced := by
    rw [enterGrace_eq, apply_ite Prod.fst, hwarned]
  have hundecided : i.ignition = true → seated → i.buckle = .opened → needed →
      n = (evaluateUnbelted prof i.moving r).1 := fun hi hs hb hn => by
    refine congrArg Prod.fst (evaluate_undecided ?_)
    rw [decided_of_seated hi hs (hb.trans_ne (by decide)), hb, required, hn]
    rfl
  refine ⟨fun h => evaluate_decided (decided_off h), fun hi hp hl => evaluate_decided ?_,
    fun hi hs hb hn => evaluate_decided ?_, fun hi hs hb hn => evaluate_decided ?_, fun hi hs hb hn => ?_,
    evaluate_calls i r⟩
  · rw [decided_of_seat hi hp, if_pos hl]
  · rw [decided_of_seated hi hs hb, required, Bool.eq_false_iff.mpr hn]
    rfl
  · rw [decided_of_seated hi hs (hb.trans_ne (by decide)), hb, required, hn]
    rfl
  · rw [hundecided hi hs hb hn]
    unfold evaluateUnbelted
    refine ⟨fun h => ?_, fun h => ?_, fun h => ?_, fun h => ?_, fun h => ?_⟩
    · rcases h with h | h <;> rw [h] <;> exact hgraced
    · rw [h]
      dsimp only
      rw [apply_ite Prod.fst, hwarned, hgraced]
    · rcases h with h | h <;> rw [h]
    · rw [h]
      dsimp only
      rw [apply_ite Prod.fst, hheard]
    · rw [h]
      dsimp only
      rw [apply_ite Prod.fst, apply_ite Prod.fst]
      simp only [Bool.not_eq_true']
      rfl

end Sys2Proof.Machine
end

section
/-! SUPPORT. The reminder tick: the count of each state, and the tick at every position (R135, R141 to R146). -/

namespace Sys2Proof.Machine

/-! ### A tick that finds the state unchanged (R141) -/

section
variable {prof : ProfileEntry} {m : Bool} {r : Reminder} {i : RemInputs} {n : Nat}

/-- The states that the audible test leads to. -/
theorem audibleTest_state : (audibleTest prof m r).1.state = .quiet ∨ (audibleTest prof m r).1.state = .audible ∨
    (audibleTest prof m r).1.state = .visual := by
  unfold audibleTest
  split
  · exact .inl rfl
  split
  exacts [.inr (.inl rfl), .inr (.inr rfl)]

/-- The states that an unbelted position enters are not those that it enters from (R139). -/
abbrev RemState.unbelted (st : RemState) : Prop := st ≠ .off ∧ st ≠ .suspended ∧ st ≠ .belted

theorem enterVisual_unbelted : (enterVisual prof m r).1.state.unbelted := by
  rw [enterVisual_eq]
  split
  · rcases audibleTest_state (prof := prof) (m := m) (r := r) with h | h | h <;> rw [h] <;> decide
  · exact ⟨fun e => (by cases e), fun e => (by cases e), fun e => (by cases e)⟩

theorem enterGrace_unbelted : (enterGrace prof m r).1.state.unbelted := by
  rw [enterGrace_eq]
  split
  · exact enterVisual_unbelted
  · exact ⟨fun e => (by cases e), fun e => (by cases e), fun e => (by cases e)⟩

/-- An evaluation that leaves the state as it is leaves the reminder as it is, but for a VISUAL expired (R138, R139). -/
theorem evaluate_same (h : (evaluate i r).1.state = r.state) (hv : r.state = .visual → r.ticks ≠ 0) :
    (evaluate i r).1 = r := by
  cases hd : decided i with
  | some st =>
    rw [evaluate_decided hd] at h ⊢
    split
    · rfl
    · rename_i hne
      rw [if_neg hne] at h
      exact absurd h hne
  | none =>
    rw [evaluate_undecided hd] at h ⊢
    unfold evaluateUnbelted at h ⊢
    cases hs : r.state <;> rw [hs] at h <;> dsimp only at h ⊢
    case off => exact absurd h enterGrace_unbelted.1
    case suspended => exact absurd h enterGrace_unbelted.2.1
    case belted =>
      split at h
      exacts [absurd h enterVisual_unbelted.2.2, absurd h enterGrace_unbelted.2.2]
    case visual => rw [if_neg (hv hs)]
    case audible =>
      split at h
      · cases h
      split at h
      · cases h
      · rw [if_neg ‹_›, if_neg ‹_›]

/-- A tick whose evaluation changes the state counts nothing (R141). -/
theorem tickReminder_of_change (h : (evaluate i r).1.state ≠ r.state) : tickReminder i r = evaluate i r := by
  unfold tickReminder
  exact if_neg h

/-- A tick whose evaluation leaves the reminder counts it (R141). -/
theorem tickReminder_of_same (h : (evaluate i r).1.state = r.state) (hv : r.state = .visual → r.ticks ≠ 0) :
    (tickReminder i r).1 = (countTick i.profile i.moving r).1 := by
  unfold tickReminder
  dsimp only
  rw [if_pos h, evaluate_same h hv]

/-! ### The counts (R141 to R145) -/

/-- OFF, BELTED, QUIET and SUSPENDED do not count. -/
theorem countTick_idle (h : r.state = .off ∨ r.state = .belted ∨ r.state = .quiet ∨ r.state = .suspended) :
    (countTick prof m r).1 = r := by
  unfold countTick
  rcases h with h | h | h | h <;> rw [h]

/-- The states that count drop by one before their end. -/
theorem countTick_down
    (h : r.state = .grace ∨ r.state = .visual ∨ r.state = .audible ∧ (r.phase = some .on ∨ r.phase = some .gap))
    (ht : r.ticks = n + 2) : (countTick prof m r).1 = { r with ticks := n + 1 } := by
  unfold countTick
  rcases h with h | h | ⟨h, hp | hp⟩
  · rw [h, ht]; rfl
  · rw [h, ht]; rfl
  · rw [h, hp, ht]; rfl
  · rw [h, hp, ht]; rfl

theorem countTick_grace_end (h : r.state = .grace) (ht : r.ticks = 1) :
    (countTick prof m r).1 = (enterVisual prof m { r with ticks := 0 }).1 := by
  unfold countTick
  rw [h, ht]
  rfl

theorem countTick_visual_end (h : r.state = .visual) (ht : r.ticks = 1) :
    (countTick prof m r).1 = (audibleTest prof m { r with ticks := 0 }).1 := by
  unfold countTick
  rw [h, ht]
  rfl

theorem countTick_on_end (h : r.state = .audible) (hp : r.phase = some .on) (ht : r.ticks = 1) :
    (countTick prof m r).1 = (onComplete prof { r with ticks := 0 }).1 := by
  unfold countTick
  rw [h, hp, ht]
  rfl

theorem countTick_gap_end (h : r.state = .audible) (hp : r.phase = some .gap) (ht : r.ticks = 1) :
    (countTick prof m r).1 = { r with phase := some .on, ticks := prof.burstOn } := by
  obtain ⟨_, _, _, _⟩ := r
  cases h
  cases hp
  cases ht
  rfl

/-- The three outcomes of the audible test (R142). -/
theorem audibleTest_quiet (h : prof.bursts ≤ r.bursts) :
    (audibleTest prof m r).1 = { r with state := .quiet, phase := none, ticks := 0 } := by
  rw [audibleTest_reminder, if_pos h]
  rfl

theorem audibleTest_on (h : r.bursts < prof.bursts) (hg : prof.speedGated = false ∨ m = true) :
    (audibleTest prof m r).1 = { r with state := .audible, phase := some .on, ticks := prof.burstOn } := by
  rw [audibleTest_reminder, if_neg (Nat.not_le.mpr h), if_pos hg]
  rfl

theorem audibleTest_expired (h : r.bursts < prof.bursts) (hg : prof.speedGated = true) (hm : m = false) :
    (audibleTest prof m r).1 = { r with state := .visual, phase := none, ticks := 0 } := by
  rw [audibleTest_reminder, if_neg (Nat.not_le.mpr h), if_neg]
  · rfl
  · rw [hg, hm]
    decide

/-- The end of an ON phase: QUIET after the last burst, else a gap, or the next burst where the gap is 0 (R144). -/
theorem onComplete_quiet (h : prof.bursts ≤ r.bursts + 1) :
    (onComplete prof r).1 = { r with state := .quiet, phase := none, ticks := 0, bursts := r.bursts + 1 } := by
  unfold onComplete
  dsimp only
  rw [if_pos h]
  rfl

theorem onComplete_next (h : r.bursts + 1 < prof.bursts) (hs : r.state = .audible) :
    (onComplete prof r).1 = { r with
      phase := if prof.burstGap = 0 then some .on else some .gap
      ticks := if prof.burstGap = 0 then prof.burstOn else prof.burstGap
      bursts := r.bursts + 1 } := by
  unfold onComplete
  dsimp only
  rw [if_neg (Nat.not_le.mpr h)]
  split
  · rw [hs]; rfl
  · rfl

end

/-! ### Every position (R135, R141, R150) -/

/-- A tick in RUN, to the end of the step. -/
theorem execReminderTick_run {s : State} (hp : s.pmg.power = .run) (ht : s.tick.isSome) :
    exec .reminderTick s =
      .next (State.tickAll { s with tick := some (tickPeriod s.pmg.timing.tick) }).settle :=
  congrArg Host.Outcome.next (if_pos ⟨hp, ht⟩)

/-- The state at the end of a step in which RME handled every position of `v` by `f`, and nothing else was done. -/
theorem State.settle_of_handled {v u : State} {f : RemInputs → Reminder → Reminder × List ChimeCall} (hs : v.settled)
    (ha : u.around = v.around) (hm : u.pmg = v.pmg)
    (hv : ∀ q, u.view q = (v.view q).handled q (f (v.remInputs q) v.positions[q].rem)) :
    u.settle = { v with
      positions := u.settle.positions, pnd := { v.pnd with image := u.settle.pnd.image }, chd := u.settle.chd
      free := u.settle.free } ∧
      ∀ q : Pos, u.settle.positions[q] = v.positions[q].reminded (f (v.remInputs q) v.positions[q].rem).1 ∧
        u.settle.pnd.image[q] = if u.settle.positions[q].rem.state = v.positions[q].rem.state then v.pnd.image[q]
          else u.settle.positions[q].rem.state.glyph := by
  obtain ⟨hpos, hpnd⟩ := State.settle_positions (t := u) (by rw [hm]; exact hs.2)
  have hframe := State.settle_of_around ha hm hs.1 hs.2
  rw [← hpos, ← hpnd] at hframe
  have hrecord : ∀ q : Pos, u.settle.positions[q] = v.positions[q].reminded (f (v.remInputs q) v.positions[q].rem).1 :=
    fun q => by
      rw [hpos]
      exact congrArg PosView.record (hv q)
  refine ⟨hframe, fun q => ⟨hrecord q, ?_⟩⟩
  rw [hrecord q, hpnd]
  exact congrArg PosView.glyph (hv q)

/-! ### The statement -/

/-- Settles O47: the tick at every position by its view, and the count of each state at its end and before it. -/
theorem reminderTick : Obligations.ReminderTick := by
  refine ⟨fun s hp ht hs => ?_, fun i r n => ?_⟩
  · obtain ⟨ha, hm, hv⟩ := State.tickAll_spec { s with tick := some (tickPeriod s.pmg.timing.tick) }
    rw [execReminderTick_run hp ht]
    generalize State.tickAll { s with tick := some (tickPeriod s.pmg.timing.tick) } = u at ha hm hv
    exact ⟨u.settle, rfl, State.settle_of_handled (v := { s with tick := some (tickPeriod s.pmg.timing.tick) }) hs ha hm hv⟩
  · intro prof after same
    have hcount : same → (r.state = .visual → r.ticks ≠ 0) → after = (countTick prof i.moving r).1 :=
      tickReminder_of_same
    have hone : r.ticks = 1 → r.state = .visual → r.ticks ≠ 0 := fun ht _ => by omega
    have hmore : r.ticks = n + 2 → r.state = .visual → r.ticks ≠ 0 := fun ht _ => by omega
    refine ⟨fun h => congrArg Prod.fst (tickReminder_of_change h), fun hsame hst => ?_, fun hsame hst => ?_,
      fun hsame hst => ?_, fun hsame hst hph => ?_, fun hsame hst hph => ?_⟩
    · rw [hcount hsame ?_, countTick_idle hst]
      intro hv
      rw [hv] at hst
      simp at hst
    · have hend : r.ticks = 1 → after = (enterVisual prof i.moving { r with ticks := 0 }).1 := fun ht =>
        (hcount hsame (hone ht)).trans (countTick_grace_end hst ht)
      refine ⟨fun ht => (hcount hsame (hmore ht)).trans (countTick_down (.inl hst) ht), fun ht hvis => ?_,
        fun ht hvis => ?_⟩
      · rw [hend ht, enterVisual_eq, if_neg hvis]
      · rw [hend ht, enterVisual_eq, if_pos hvis]
        exact ⟨audibleTest_quiet, fun hb => ⟨audibleTest_on hb, audibleTest_expired hb⟩⟩
    · have hend : r.ticks = 1 → after = (audibleTest prof i.moving { r with ticks := 0 }).1 := fun ht =>
        (hcount hsame (hone ht)).trans (countTick_visual_end hst ht)
      refine ⟨fun ht => (hcount hsame (hmore ht)).trans (countTick_down (.inr (.inl hst)) ht), fun ht hb => ?_,
        fun ht hb => ⟨fun hg => ?_, fun hg hm => ?_⟩⟩
      · rw [hend ht]; exact audibleTest_quiet hb
      · rw [hend ht]; exact audibleTest_on hb hg
      · rw [hend ht, hst]
        exact audibleTest_expired hb hg hm
    · have hend : r.ticks = 1 → after = (onComplete prof { r with ticks := 0 }).1 := fun ht =>
        (hcount hsame (hone ht)).trans (countTick_on_end hst hph ht)
      refine ⟨fun ht => (hcount hsame (hmore ht)).trans (countTick_down (.inr (.inr ⟨hst, .inl hph⟩)) ht),
        fun ht => ⟨fun hb => ?_, fun hb => ?_⟩⟩
      · rw [hend ht]; exact onComplete_quiet hb
      · rw [hend ht]; exact onComplete_next hb hst
    · exact ⟨fun ht => (hcount hsame (hmore ht)).trans (countTick_down (.inr (.inr ⟨hst, .inr hph⟩)) ht),
        fun ht => (hcount hsame (hone ht)).trans (countTick_gap_end hst hph ht)⟩

end Sys2Proof.Machine
end

section
/-! SUPPORT. The vehicle record and the PROFILE write: RME evaluates the positions that they concern (R133, R152, R170). -/

namespace Sys2Proof.Machine

/-! ### The vehicle record (R170, R177) -/

section
variable {s u v : State} {b : Byte}

/-- PMG after a vehicle record: moving and locked taken, the dwell reviewed where the lock changed (R170, R177). -/
def Pmg.vehicleTaken (m : Pmg) (b : Byte) : Pmg :=
  let n := m.vehicle (b.getLsbD 0) (b.getLsbD 1)
  if n.locked ≠ m.locked then n.dwellReview else n

/-- In PARK_WATCH the dwell runs with the doors locked and closed, and is cleared and stopped otherwise (R177). -/
theorem Pmg.dwellReview_watch {m : Pmg} (h : m.power = .parkWatch) : m.dwellReview = { m with
    dwell := if ¬(m.locked ∧ m.doorOpen = false) then 0 else m.dwell, dwellTimer := m.locked && !m.doorOpen } := by
  unfold Pmg.dwellReview
  rw [if_pos h]
  cases m.locked <;> cases m.doorOpen <;> rfl

/-- The dwell follows the lock in PARK_WATCH where it changed, and stands elsewhere (R177). -/
theorem Pmg.vehicleTaken_eq (m : Pmg) (b : Byte) : m.vehicleTaken b = { m with
    moving := b.getLsbD 0 && m.ignition, locked := b.getLsbD 1, seen := true
    dwell := if m.power = .parkWatch ∧ b.getLsbD 1 ≠ m.locked ∧ ¬(b.getLsbD 1 ∧ m.doorOpen = false)
      then 0 else m.dwell
    dwellTimer := if m.power = .parkWatch ∧ b.getLsbD 1 ≠ m.locked then b.getLsbD 1 && !m.doorOpen
      else m.dwellTimer } := by
  have htaken : m.vehicleTaken b = if b.getLsbD 1 ≠ m.locked
      then (m.vehicle (b.getLsbD 0) (b.getLsbD 1)).dwellReview else m.vehicle (b.getLsbD 0) (b.getLsbD 1) := rfl
  rw [htaken]
  by_cases hl : b.getLsbD 1 = m.locked
  · rw [if_neg (not_not_intro hl), if_neg fun e => e.2.1 hl, if_neg fun e => e.2 hl]
    rfl
  rw [if_pos hl]
  by_cases hp : m.power = .parkWatch
  · rw [Pmg.dwellReview_watch (m := m.vehicle (b.getLsbD 0) (b.getLsbD 1)) (by exact hp),
      if_pos (⟨hp, hl⟩ : m.power = .parkWatch ∧ b.getLsbD 1 ≠ m.locked)]
    have hdwell (x : Prop) : (m.power = .parkWatch ∧ b.getLsbD 1 ≠ m.locked ∧ x) ↔ x :=
      and_iff_right hp |>.trans (and_iff_right hl)
    simp only [hdwell]
    rfl
  · rw [if_neg fun e => hp e.1, if_neg fun e => hp e.1]
    exact if_neg hp

theorem Pmg.vehicleTaken_watch (m : Pmg) (b : Byte) :
    (m.vehicleTaken b).power = m.power ∧ (m.vehicleTaken b).watchSet = m.watchSet := by
  rw [Pmg.vehicleTaken_eq]
  exact ⟨rfl, rfl⟩

/-- A change of PMG over a state that differs from another in what the views show, and not in the watch set. -/
theorem State.modPmg_around (ha : u.around = v.around) (hm : u.pmg = v.pmg) (f : Pmg → Pmg) :
    (u.modPmg f).around = (v.modPmg f).around := by
  show { u.around with pmg := { f u.pmg with watchSet := [] } } = { v.around with pmg := { f v.pmg with watchSet := [] } }
  rw [ha, hm]

/-- RME's part of a vehicle record: every position evaluated where moving changed (R137, R170). -/
def State.vehicleEvaluated (v : State) (moved : Prop) [Decidable moved] : State := if moved then v.evalAll else v

theorem State.vehicleEvaluated_spec (v : State) (moved : Prop) [Decidable moved] :
    (v.vehicleEvaluated moved).around = v.around ∧ (v.vehicleEvaluated moved).pmg = v.pmg ∧
      ∀ q : Pos, (v.vehicleEvaluated moved).positions[q] =
        if moved then v.positions[q].reminded (evaluate (v.remInputs q) v.positions[q].rem).1 else v.positions[q] := by
  obtain ⟨ha, hm, hv⟩ := v.evalAll_spec
  unfold State.vehicleEvaluated
  split
  · exact ⟨ha, hm, fun q => congrArg PosView.record (hv q)⟩
  · exact ⟨rfl, rfl, fun _ => rfl⟩

/-- A vehicle record: PMG takes it, and RME evaluates where moving changed. -/
theorem State.takeVehicle_spec (s : State) (b : Byte) :
    (s.takeVehicle b).around = ({ s with pmg := s.pmg.vehicleTaken b } : State).around ∧
      (s.takeVehicle b).pmg = s.pmg.vehicleTaken b ∧
        ∀ q : Pos, (s.takeVehicle b).positions[q] =
          if (b.getLsbD 0 && s.pmg.ignition) = s.pmg.moving then s.positions[q]
          else s.positions[q].reminded
            (evaluate { s.remInputs q with moving := b.getLsbD 0 && s.pmg.ignition } s.positions[q].rem).1 := by
  let n := s.pmg.vehicle (b.getLsbD 0) (b.getLsbD 1)
  obtain ⟨ha, hm, hpos⟩ := State.vehicleEvaluated_spec { s with pmg := n } (n.moving ≠ s.pmg.moving)
  have hu : s.takeVehicle b = if n.locked ≠ s.pmg.locked
      then (State.vehicleEvaluated { s with pmg := n } (n.moving ≠ s.pmg.moving)).modPmg Pmg.dwellReview
      else State.vehicleEvaluated { s with pmg := n } (n.moving ≠ s.pmg.moving) := rfl
  rw [hu]
  generalize State.vehicleEvaluated { s with pmg := n } (n.moving ≠ s.pmg.moving) = u at ha hm hpos
  have hrecord : ∀ q : Pos, u.positions[q] = if (b.getLsbD 0 && s.pmg.ignition) = s.pmg.moving then s.positions[q]
      else s.positions[q].reminded
        (evaluate { s.remInputs q with moving := b.getLsbD 0 && s.pmg.ignition } s.positions[q].rem).1 := fun q =>
    (hpos q).trans (ite_not ..)
  show _ = State.around { s with pmg := if n.locked ≠ s.pmg.locked then n.dwellReview else n } ∧
    _ = (if n.locked ≠ s.pmg.locked then n.dwellReview else n) ∧ _
  split
  · exact ⟨State.modPmg_around ha hm Pmg.dwellReview, congrArg Pmg.dwellReview hm, hrecord⟩
  · exact ⟨ha, hm, hrecord⟩

theorem execVehstat_taken (hr : s.tkp.rx = .inFrame) (hp : s.pmg.power ≠ .starting) :
    exec (.vehstat [b]) s = .next (s.rxHunt.takeVehicle b).settle :=
  congrArg Host.Outcome.next ((if_neg (not_not_intro hr)).trans (if_neg hp))

theorem execVehstat_starting (hr : s.tkp.rx = .inFrame) (hp : s.pmg.power = .starting) (payload : List Byte) :
    exec (.vehstat payload) s = .next s.rxHunt :=
  congrArg Host.Outcome.next ((if_neg (not_not_intro hr)).trans (if_pos hp))

theorem execVehstat_length (hr : s.tkp.rx = .inFrame) (hp : s.pmg.power ≠ .starting) {payload : List Byte}
    (hl : payload.length ≠ 1) : exec (.vehstat payload) s = .next s.abandonFrame := by
  refine congrArg Host.Outcome.next ((if_neg (not_not_intro hr)).trans ((if_neg hp).trans ?_))
  split
  · exact absurd rfl hl
  · rfl

end

/-- Settles O11: the record taken by PMG, then RME over every position where moving changed. -/
theorem vehicleRecord : Obligations.VehicleRecord := by
  intro s b payload hr
  refine ⟨fun hp hs => ?_, fun hp => execVehstat_starting hr hp payload, fun hp hl => execVehstat_length hr hp hl⟩
  obtain ⟨ha, hm, hpos⟩ := s.rxHunt.takeVehicle_spec b
  rw [execVehstat_taken hr hp]
  generalize s.rxHunt.takeVehicle b = u at ha hm hpos
  obtain ⟨hpower, hset⟩ := s.pmg.vehicleTaken_watch b
  have hsettled : ({ s.rxHunt with pmg := s.pmg.vehicleTaken b } : State).settled :=
    State.settled_of_eq hs rfl hpower hset
  have hfilled : u.pmg.power = .parkWatch → u.pmg.watchSet ≠ [] := by
    rw [hm]
    exact hsettled.2
  obtain ⟨hp', hn'⟩ := State.settle_positions hfilled
  have hframe := State.settle_of_around ha hm hsettled.1 hsettled.2
  rw [← hp', ← hn'] at hframe
  have hpmg : u.settle.pmg = s.pmg.vehicleTaken b := congrArg State.pmg hframe
  refine ⟨u.settle, rfl, ?_, hpmg.trans (Pmg.vehicleTaken_eq ..), fun q => ?_⟩
  · rw [hpmg]
    exact hframe
  · rw [hp']
    exact hpos q

/-! ### The PROFILE write (R133, R152) -/

section
variable {s : State} {n : Nat} {i : Fin 4} {bs : List Byte} {e : ProfileEntry}

theorem ownProfile_error {st : Status} (hp : parseProfile bs = .error st) : ownProfile n bs s = .error st := by
  unfold ownProfile
  rw [hp]

/-- A PROFILE entry stored, and the positions that use it evaluated (R152). -/
def State.profileStored (s : State) (i : Fin 4) (e : ProfileEntry) : State :=
  State.evalProfile { s with profiles := put s.profiles i e } i

theorem ownProfile_ok (hn : Fin.ofNat 4 n = i) (hp : parseProfile bs = .ok e) :
    ownProfile n bs s = .ok (s.profileStored i e) := by
  subst hn
  unfold ownProfile
  rw [hp]
  rfl

/-- The inputs of a position that uses the entry just stored. -/
theorem State.remInputs_profile {p : Pos} (h : s.poscfg[p].profile = i) :
    ({ s with profiles := put s.profiles i e } : State).remInputs p = { s.remInputs p with profile := e } := by
  have hprofile : ({ s with profiles := put s.profiles i e } : State).profileOf p = e := by
    show (put s.profiles i e)[s.poscfg[p].profile] = e
    simp only [h]
    exact put_get_self ..
  unfold State.remInputs
  rw [hprofile]

/-- The stored entry evaluates the positions that use it, and changes nothing around them (R152). -/
theorem State.profileStored_spec (s : State) (i : Fin 4) (e : ProfileEntry) :
    (s.profileStored i e).around = ({ s with profiles := put s.profiles i e } : State).around ∧
      (s.profileStored i e).pmg = s.pmg ∧ (s.profileStored i e).profiles = put s.profiles i e ∧
        ∀ p : Pos, (s.profileStored i e).positions[p] = if s.poscfg[p].profile = i then
          s.positions[p].reminded (evaluate { s.remInputs p with profile := e } s.positions[p].rem).1
          else s.positions[p] := by
  obtain ⟨ha, hm, hv⟩ := State.evalProfile_spec { s with profiles := put s.profiles i e } i
  unfold State.profileStored
  generalize State.evalProfile { s with profiles := put s.profiles i e } i = u at ha hm hv
  refine ⟨ha, hm, (congrArg State.profiles ha :), fun p => ?_⟩
  refine (congrArg PosView.record (hv p)).trans ?_
  rw [apply_ite PosView.record]
  by_cases h : s.poscfg[p].profile = i
  · rw [if_pos h, if_pos (by exact h), State.remInputs_profile h]
    rfl
  · rw [if_neg h, if_neg (by exact h)]
    rfl

end

/-- Settles O17: the range check, or the entry stored and its positions evaluated. -/
theorem profileWrite : Obligations.ProfileWrite := by
  intro s tag i b0 b1 b2 b3 b4 b5 b6 b7 ht hs hprot e c
  have hi : (byte i.val).toNat = i.val := byte_toNat (by omega)
  have hn : Fin.ofNat 4 (byte i.val).toNat = i := by rw [hi, ofNat_fin]
  have hcount : (byte i.val).toNat < TableId.profile.count := by rw [hi]; exact i.isLt
  have hparse : parseProfile [b0, b1, b2, b3, b4, b5, b6, b7] =
      if b3.toNat = 0 ∨ 15 < b5.toNat ∨ 3 < b6.toNat then .error .range else .ok e := rfl
  have hzero : b3.toNat = 0 ↔ b3 = 0 := BitVec.toNat_inj (y := 0#8)
  refine ⟨fun h => ?_, fun h3 h5 h6 => ?_⟩
  · refine congrArg Host.Outcome.next (State.takeWrite_refused ht hs hprot hcount rfl (ownProfile_error ?_))
    rw [hparse, if_pos (h.imp_left hzero.mpr)]
  · have hin : ¬(b3.toNat = 0 ∨ 15 < b5.toNat ∨ 3 < b6.toNat) := by
      rintro (h | h | h)
      exacts [h3 (hzero.mp h), Nat.not_lt.mpr h5 h, Nat.not_lt.mpr h6 h]
    rw [if_neg hin] at hparse
    have hstored := State.takeWrite_stored (tag := tag) ht hprot hcount rfl (ownProfile_ok (s := s.rxHunt) hn hparse)
    obtain ⟨ha, hm, hprofiles, hpos⟩ := s.rxHunt.profileStored_spec i e
    generalize s.rxHunt.profileStored i e = u at hstored ha hm hprofiles hpos
    have hbytes : u.entryBytes .profile (byte i.val).toNat = e.bytes := by
      show u.profiles[Fin.ofNat 4 (byte i.val).toNat].bytes = _
      simp only [hn, hprofiles]
      exact congrArg ProfileEntry.bytes (put_get_self ..)
    rw [hbytes] at hstored
    generalize hw : u.reply tag 0x02 .ok (byte TableId.profile.id :: byte i.val :: e.bytes) = w at hstored
    have hwm : w.pmg = s.pmg := by rw [← hw]; exact hm
    have hwa : w.around = ({ s with profiles := put s.profiles i e }.answered tag 0x02 .ok
        (5 :: byte i.val :: e.bytes)).around := by
      rw [← hw]
      exact congrArg (fun x : State => x.reply tag 0x02 .ok (5 :: byte i.val :: e.bytes)) ha
    obtain ⟨hwp, hwn⟩ := State.settle_positions (t := w) (by rw [hwm]; exact hs.2)
    refine ⟨w.settle, congrArg (fun t : State => Host.Outcome.next t.settle) hstored, ?_, fun p => ?_⟩
    · rw [hwp, hwn]
      exact State.settle_of_around hwa hwm hs.1 hs.2
    · rw [hwp, ← hw]
      exact hpos p

end Sys2Proof.Machine
end

section
/-! SUPPORT. CHD: a request that ends hands the grant over by the release order (R157); the chime's timers (R158, R159);
the frames that carry a request to a block. -/

namespace Sys2Proof.Machine

/-! ### The grant handed over (R157) -/

/-- The grantee `g` gives up the grant, if it holds it, and the release order gives the next one (R157). -/
def Chd.handOver (c : Chd) (g : Grant) : Chd := { c with grant := if c.grant = g then c.release else c.grant }

/-- A grant that another holds stands. The release order reads the requests alone, so the next grant is the one of
R157 after the handing over too. -/
theorem Chd.handOver_spec (c : Chd) (g : Grant) :
    (c.grant ≠ g → (c.handOver g).grant = c.grant) ∧
      (c.grant = g → (c.handOver g).grantsNext (c.handOver g).grant) := by
  refine ⟨fun h => if_neg h, fun h => ?_⟩
  have hgrant : (c.handOver g).grant = (c.handOver g).release := if_pos h
  rw [hgrant]
  exact Chd.release_grantsNext _

theorem Chd.withdrawPos_standing {c : Chd} {p : Pos} (h : c.requests[p].isSome) :
    c.withdrawPos p = Chd.handOver { c with requests := put c.requests p none } (.pos p) := by
  unfold Chd.withdrawPos
  exact if_pos h

theorem Chd.withdrawPos_absent {c : Chd} {p : Pos} (h : c.requests[p] = none) : c.withdrawPos p = c := by
  unfold Chd.withdrawPos
  rw [h]
  rfl

theorem Chd.withdrawAlert_standing {c : Chd} (h : c.alert.isSome) :
    c.withdrawAlert = Chd.handOver { c with alert := none } .alert := by
  unfold Chd.withdrawAlert
  exact if_pos h

/-- The alert's withdrawal changes the alert and the grant alone. -/
theorem Chd.withdrawAlert_eq (c : Chd) : c.withdrawAlert = { c with alert := none, grant := c.withdrawAlert.grant } := by
  by_cases h : c.alert.isSome
  · rw [Chd.withdrawAlert_standing h]
    rfl
  · have hnone : c.alert = none := Option.not_isSome_iff_eq_none.mp h
    unfold Chd.withdrawAlert
    rw [if_neg h, ← hnone]

theorem Chd.raiseAlert_standing {c : Chd} (h : c.alert.isSome) : c.raiseAlert = c := by
  unfold Chd.raiseAlert
  exact if_pos h

theorem Chd.raiseAlert_absent {c : Chd} (h : c.alert = none) :
    c.raiseAlert = { c with alert := some .tone3, grant := .alert } := by
  unfold Chd.raiseAlert
  rw [h]
  rfl

theorem Chd.raiseTest_standing {c : Chd} (h : c.test.isSome) : c.raiseTest = { c with test := some 0 } := by
  unfold Chd.raiseTest
  exact if_pos h

theorem Chd.raiseTest_absent {c : Chd} (h : c.test = none) :
    c.raiseTest = { c with test := some 0, grant := if c.grant = .alert then .alert else .test } := by
  unfold Chd.raiseTest
  rw [h]
  rfl

/-! ### The tone of a grantee (R158) -/

theorem Chd.output_none {c : Chd} (h : c.grant = .none) : c.output = none := by
  unfold Chd.output
  rw [h]

theorem Chd.output_alert {c : Chd} (h : c.grant = .alert) : c.output = c.alert.map AlertPhase.tone := by
  unfold Chd.output
  rw [h]

theorem Chd.output_test {c : Chd} (h : c.grant = .test) : c.output = c.test := by
  unfold Chd.output
  rw [h]

theorem Chd.output_pos {c : Chd} {p : Pos} (h : c.grant = .pos p) : c.output = c.requests[p] := by
  unfold Chd.output
  rw [h]

/-- Settles O48: each event at CHD by its request standing or absent, then the tone of each grantee. -/
theorem chimeGrant : Obligations.ChimeGrant := by
  intro c p tone
  refine ⟨rfl, Chd.withdrawPos_absent, fun h => ?_, Chd.raiseAlert_absent, fun h => ?_,
    fun h => ⟨Chd.output_none h, (Chd.frequency_eq_none c).mpr (Chd.output_none h)⟩, fun h ha => ?_, fun h ha => ?_,
    Chd.output_test, Chd.output_pos, Chd.frequency_of_output⟩
  · rw [Chd.withdrawPos_standing h]
    exact ⟨_, rfl, Chd.handOver_spec { c with requests := put c.requests p none } (.pos p)⟩
  · rw [Chd.withdrawAlert_standing h]
    exact ⟨Chd.raiseAlert_standing h, _, rfl, Chd.handOver_spec { c with alert := none } .alert⟩
  · rw [Chd.output_alert h, ha]
    rfl
  · rw [Chd.output_alert h, ha]
    rfl

/-! ### The timers (R158, R159) -/

theorem AlertPhase.next_eq (ph : AlertPhase) : ph.next = if ph = .tone3 then .tone1 else .tone3 := by
  cases ph <;> rfl

theorem nextQuarter_of_lt {q : Fin 4} (h : q < 3) : nextQuarter q = q + 1 := if_neg h.ne

theorem exec_alertPatternTimer (s : State) : exec .alertPatternTimer s =
    .next { s with chd := { s.chd with alert := s.chd.alert.map AlertPhase.next } } := rfl

theorem exec_chimeTestQuarter (s : State) : exec .chimeTestQuarter s =
    .next { s with chd := { s.chd with test := s.chd.test.map nextQuarter } } := rfl

theorem exec_chimeTestEnd_last {s : State} (h : s.chd.test = some 3) :
    exec .chimeTestEnd s = .next { s with chd := Chd.handOver { s.chd with test := none } .test } :=
  congrArg Host.Outcome.next (if_pos h)

theorem exec_chimeTestEnd_other {s : State} (h : s.chd.test ≠ some 3) : exec .chimeTestEnd s = .next s :=
  congrArg Host.Outcome.next (if_neg h)

/-- Settles O49: each timer by the request it runs for, standing or absent. -/
theorem chimeTimers : Obligations.ChimeTimers := by
  intro s ph q
  refine ⟨fun h => ?_, fun h => ?_, fun h hq => ?_, fun h => ⟨?_, ?_⟩, fun h => ?_⟩
  · rw [exec_alertPatternTimer, h, Option.map_some, AlertPhase.next_eq]
  · rw [exec_alertPatternTimer, h, Option.map_none, ← h]
  · rw [exec_chimeTestQuarter, h, Option.map_some, nextQuarter_of_lt hq]
  · rw [exec_chimeTestQuarter, h, Option.map_none, ← h]
  · exact exec_chimeTestEnd_other (by rw [h]; exact nofun)
  · exact ⟨_, exec_chimeTestEnd_last h, rfl, Chd.handOver_spec { s.chd with test := none } .test⟩

/-! ### Frames to PMG, CHD, PND and TKP (R173, R180, R159, R165, R199) -/

section
variable {s : State}

theorem exec_sleepreq_takes (ht : s.takes) (tag : Byte) : exec (.sleepreq tag []) s = .next
    (if s.pmg.power = .run ∧ s.pmg.ignition = false then
      { s with pmg := { s.pmg with sleepReq := true } }.answered tag 0x0C .ok []
    else s.answered tag 0x0C .state []) :=
  congrArg Host.Outcome.next ht.own

theorem exec_alertack_alerting (ht : s.takes) (h : s.pmg.sub = some .alerting) (tag : Byte) :
    exec (.alertack tag []) s = .next (s.silence.answered tag 0x0D .ok []) := by
  have hsub : s.rxHunt.pmg.sub = some .alerting := h
  refine congrArg Host.Outcome.next (ht.own.trans ?_)
  rw [hsub]
  rfl

theorem exec_alertack_silenced (ht : s.takes) (h : s.pmg.sub = some .silenced) (tag : Byte) :
    exec (.alertack tag []) s = .next (s.answered tag 0x0D .ok []) := by
  have hsub : s.rxHunt.pmg.sub = some .silenced := h
  refine congrArg Host.Outcome.next (ht.own.trans ?_)
  rw [hsub]
  rfl

theorem exec_alertack_other (ht : s.takes) (h : s.pmg.sub = some .watching ∨ s.pmg.sub = none) (tag : Byte) :
    exec (.alertack tag []) s = .next (s.answered tag 0x0D .state []) := by
  have hsub : s.rxHunt.pmg.sub = some .watching ∨ s.rxHunt.pmg.sub = none := h
  refine congrArg Host.Outcome.next (ht.own.trans ?_)
  rcases hsub with h | h <;> rw [h] <;> rfl

theorem exec_chimetst_takes (ht : s.takes) (tag : Byte) : exec (.chimetst tag []) s =
    .next ({ s with chd := s.chd.raiseTest }.answered tag 0x0E .ok []) :=
  congrArg Host.Outcome.next ht.own

theorem exec_paneltst_takes (ht : s.takes) (tag : Byte) : exec (.paneltst tag []) s =
    .next ({ s with pnd := { s.pnd with test := true } }.answered tag 0x0F .ok []) :=
  congrArg Host.Outcome.next ht.own

theorem exec_softrst_takes (ht : s.takes) (tag : Byte) : exec (.softrst tag []) s =
    .next ({ s with tkp := { s.tkp with softReset := true } }.answered tag 0x12 .ok []) :=
  congrArg Host.Outcome.next ht.own

end

/-- Settles O28: each request answered by its owner, SLEEPREQ and ALERTACK by the state they find, CHIMETST by the test
standing or absent. -/
theorem requestsToBlocks : Obligations.RequestsToBlocks := by
  refine ⟨fun s tag ht => ⟨fun hp hi => ?_, fun h => ?_, fun hsub hw => ?_, (exec_alertack_silenced ht · tag),
      (exec_alertack_other ht · tag)⟩,
    fun s tag ht => ⟨fun h => ?_, fun h => ?_, exec_paneltst_takes ht tag, exec_softrst_takes ht tag⟩⟩
  · rw [exec_sleepreq_takes ht, if_pos ⟨hp, hi⟩]
  · rw [exec_sleepreq_takes ht, if_neg fun ⟨hp, hi⟩ => h.elim (· hp) fun e => by rw [hi] at e; cases e]
  · exact ⟨_, s.chd.withdrawAlert_eq, Chd.withdrawAlert_whole hw, exec_alertack_alerting ht hsub tag⟩
  · rw [exec_chimetst_takes ht, Chd.raiseTest_absent h]
  · rw [exec_chimetst_takes ht, Chd.raiseTest_standing h]

end Sys2Proof.Machine
end

section
/-! SUPPORT. Writes of TIMING, PANELCFG and PROTECT: the clamped entry stored (R186, R162, R205). -/

namespace Sys2Proof.Machine

/-- The layout code is a byte, 0 exactly as the byte is 0. -/
theorem parsePanelCfg_ok (b0 b2 b3 b4 : Byte) {b1 : Byte} (h : b1.toNat ≤ 1) :
    parsePanelCfg [b0, b1, b2, b3, b4] = .ok
      { enable := b0 ≠ 0, layout := if b1 = 0 then .fourByEight else .eightByFour
        fitted := BitVec.ofNat 16 (b2.toNat * 256 + b3.toNat), duty := within 1 8 b4.toNat } := by
  have hzero : b1 = 0 ↔ b1.toNat = 0 := (BitVec.toNat_inj (y := 0#8)).symm
  simp only [hzero]
  exact if_neg (Nat.not_lt.mpr h)

theorem parsePanelCfg_error {b0 b1 b2 b3 b4 : Byte} (h : 1 < b1.toNat) :
    parsePanelCfg [b0, b1, b2, b3, b4] = .error .range := if_pos h

theorem ownPanelcfg_ok {s : State} {n : Nat} {bs : List Byte} {e : PanelCfg} (h : parsePanelCfg bs = .ok e) :
    ownPanelcfg n bs s = .ok { s with pnd := { s.pnd with cfg := e } } := by
  unfold ownPanelcfg
  rw [h]

theorem ownPanelcfg_error {s : State} {n : Nat} {bs : List Byte} {st : Status} (h : parsePanelCfg bs = .error st) :
    ownPanelcfg n bs s = .error st := by
  unfold ownPanelcfg
  rw [h]

/-- Settles O21: each entry as its bytes carry it, stored by its owner alone; PANELCFG by its layout code. -/
theorem plainTableWrites : Obligations.PlainTableWrites := by
  intro s tag b0 b1 b2 b3 b4 b5 b6 b7 b8 b9 ht
  refine ⟨fun hp => ?_, fun hp => ⟨fun h => ?_, fun h => ?_⟩, ?_⟩
  · intro e
    have hown : ownTiming 0 [b0, b1, b2, b3, b4, b5, b6, b7, b8, b9] s.rxHunt =
        .ok { s.rxHunt with pmg := { s.pmg with timing := e } } := rfl
    exact congrArg Host.Outcome.next (State.takeWrite_stored (index := 0) ht hp (by decide) rfl hown)
  · have hown : ownPanelcfg 0 [b0, b1, b2, b3, b4] s.rxHunt = .error .range :=
      ownPanelcfg_error (parsePanelCfg_error h)
    exact congrArg Host.Outcome.next (ht.own.trans (State.writeTable_error (s := s.rxHunt) (by decide) rfl hp hown))
  · have hown := ownPanelcfg_ok (s := s.rxHunt) (n := 0) (parsePanelCfg_ok b0 b2 b3 b4 h)
    exact congrArg Host.Outcome.next (State.takeWrite_stored (index := 0) ht hp (by decide) rfl hown)
  · have hown : ownProtect 0 [b0] s.rxHunt =
        .ok { s.rxHunt with cfs := { s.cfs with live := BitVec.ofNat 4 b0.toNat } } := rfl
    exact congrArg Host.Outcome.next (State.takeWrite_stored (index := 0) ht rfl (by decide) rfl hown)

end Sys2Proof.Machine
end

section
/-! SUPPORT. PND's scan: the lines of a common's slot, lamp by lamp, and the events of the panel (R161 to R165). -/

namespace Sys2Proof.Machine

/-! ### The lamps of a glyph (R161) -/

theorem Glyph.green_iff (g : Glyph) (f : FlashPhase) : g.green f = true ↔ g = .belted ∨ (g = .fault ∧ f = .a) := by
  cases g <;> cases f <;> decide

theorem Glyph.red_iff (g : Glyph) (f : FlashPhase) :
    g.red f = true ↔ g = .unbelted ∨ (g = .warn ∧ f = .a) ∨ (g = .fault ∧ f = .b) := by
  cases g <;> cases f <;> decide

theorem FlashPhase.next_eq (f : FlashPhase) : f.next = if f = .a then .b else .a := by cases f <;> rfl

/-! ### The places of the lamps (R163) -/

theorem Layout.lines_eq (l : Layout) : l.lines = if l = .fourByEight then 8 else 4 := by cases l <;> rfl

theorem Layout.commons_eq (l : Layout) : l.commons = if l = .fourByEight then 4 else 8 := by cases l <;> rfl

theorem Layout.commons_le (l : Layout) : l.commons ≤ 8 := by cases l <;> decide

theorem Layout.lines_cases (l : Layout) : l.lines = 8 ∨ l.lines = 4 := by cases l <;> decide

theorem Layout.lines_le (l : Layout) : l.lines ≤ 8 := by cases l <;> decide

theorem Layout.lines_pos (l : Layout) : 0 < l.lines := by cases l <;> decide

theorem greenLine_lt (l : Layout) (p : Pos) : greenLine l p < l.lines := Nat.mod_lt _ l.lines_pos

theorem redLine_lt (l : Layout) (p : Pos) : redLine l p < l.lines := Nat.mod_lt _ l.lines_pos

/-- A layout has an even number of lines, so the green lamps stand on the even ones and the red lamps on the odd. -/
theorem greenLine_ne_redLine (l : Layout) (p q : Pos) : greenLine l p ≠ redLine l q := by
  unfold greenLine redLine
  rcases l.lines_cases with h | h <;> rw [h] <;> omega

section
variable {l : Layout} {p q : Pos}

/-- No two positions share a common and the line of their green lamps. -/
theorem eq_of_greenLine_eq (hc : lampCommon l p = lampCommon l q) (hg : greenLine l p = greenLine l q) : p = q := by
  refine Fin.ext ?_
  unfold lampCommon at hc
  unfold greenLine at hg
  rcases l.lines_cases with h | h <;> rw [h] at hc hg <;> omega

/-- No two positions share a common and the line of their red lamps. -/
theorem eq_of_redLine_eq (hc : lampCommon l p = lampCommon l q) (hr : redLine l p = redLine l q) : p = q := by
  refine Fin.ext ?_
  unfold lampCommon at hc
  unfold redLine at hr
  rcases l.lines_cases with h | h <;> rw [h] at hc hr <;> omega

end

/-! ### The lines of a slot (R161, R163, R164, R165) -/

theorem lineBit_getLsbD {i : Nat} (h : i < 8) (line : Nat) : (lineBit i).getLsbD line = true ↔ line = i := by
  rw [lineBit, BitVec.getLsbD_ofNat, Nat.testBit_two_pow, Bool.and_eq_true, decide_eq_true_eq, decide_eq_true_eq]
  omega

theorem litBit_getLsbD {c : Prop} [Decidable c] {i : Nat} (h : i < 8) (line : Nat) :
    (if c then lineBit i else 0).getLsbD line = true ↔ c ∧ line = i := by
  by_cases hc : c
  · rw [if_pos hc, lineBit_getLsbD h]
    exact (and_iff_right hc).symm
  · rw [if_neg hc, BitVec.ofNat_eq_ofNat, BitVec.getLsbD_zero]
    exact iff_of_false (by decide) fun e => hc e.1

theorem foldl_or_getLsbD {α : Type} {w : Nat} (f : α → BitVec w) (as : List α) (a : BitVec w) (k : Nat) :
    (as.foldl (fun acc x => acc ||| f x) a).getLsbD k = true ↔
      a.getLsbD k = true ∨ ∃ x ∈ as, (f x).getLsbD k = true := by
  induction as generalizing a with
  | nil => simp
  | cons x xs ih => rw [List.foldl_cons, ih, BitVec.getLsbD_or, Bool.or_eq_true, or_assoc, List.exists_mem_cons_iff]

section
variable (n : Pnd) (cfg : PanelCfg) {p : Pos} {c : Nat}

/-- The green lamp of position `p` is to be lit (R161, R164, R165). -/
abbrev Pnd.greenLit (p : Pos) : Prop := n.frameTest ∨ (n.shown cfg p).green n.flash

/-- The red lamp of position `p` is to be lit (R161, R164, R165). -/
abbrev Pnd.redLit (p : Pos) : Prop := n.frameTest ∨ (n.shown cfg p).red n.flash

theorem Pnd.litLines_getLsbD (p : Pos) (line : Nat) : (n.litLines cfg p).getLsbD line = true ↔
    n.greenLit cfg p ∧ line = greenLine cfg.layout p ∨ n.redLit cfg p ∧ line = redLine cfg.layout p := by
  have hgreen := (greenLine_lt cfg.layout p).trans_le cfg.layout.lines_le
  have hred := (redLine_lt cfg.layout p).trans_le cfg.layout.lines_le
  unfold Pnd.litLines
  rw [BitVec.getLsbD_or, Bool.or_eq_true, litBit_getLsbD hgreen, litBit_getLsbD hred]

/-- A slot drives exactly the lines that a position of its common lights. -/
theorem Pnd.slotLines_getLsbD (c line : Nat) : (n.slotLines cfg c).getLsbD line = true ↔
    ∃ p, lampCommon cfg.layout p = c ∧ (n.litLines cfg p).getLsbD line = true := by
  unfold Pnd.slotLines
  rw [foldl_or_getLsbD]
  simp

/-- A position's green line is driven in its slot by its own green lamp alone. -/
theorem Pnd.slotLines_green (hc : lampCommon cfg.layout p = c) :
    (n.slotLines cfg c).getLsbD (greenLine cfg.layout p) = true ↔ n.greenLit cfg p := by
  rw [Pnd.slotLines_getLsbD]
  constructor
  · rintro ⟨q, hq, hlit⟩
    rcases (n.litLines_getLsbD cfg q _).mp hlit with ⟨hgreen, hline⟩ | ⟨_, hline⟩
    · rwa [eq_of_greenLine_eq (hc.trans hq.symm) hline]
    · exact absurd hline (greenLine_ne_redLine _ _ _)
  · exact fun h => ⟨p, hc, (n.litLines_getLsbD cfg p _).mpr (.inl ⟨h, rfl⟩)⟩

/-- A position's red line is driven in its slot by its own red lamp alone. -/
theorem Pnd.slotLines_red (hc : lampCommon cfg.layout p = c) :
    (n.slotLines cfg c).getLsbD (redLine cfg.layout p) = true ↔ n.redLit cfg p := by
  rw [Pnd.slotLines_getLsbD]
  constructor
  · rintro ⟨q, hq, hlit⟩
    rcases (n.litLines_getLsbD cfg q _).mp hlit with ⟨_, hline⟩ | ⟨hred, hline⟩
    · exact absurd hline.symm (greenLine_ne_redLine _ _ _)
    · rwa [eq_of_redLine_eq (hc.trans hq.symm) hline]
  · exact fun h => ⟨p, hc, (n.litLines_getLsbD cfg p _).mpr (.inr ⟨h, rfl⟩)⟩

/-- A slot drives no line beyond those of its layout. -/
theorem Pnd.slotLines_beyond (c : Nat) {line : Nat} (h : cfg.layout.lines ≤ line) :
    (n.slotLines cfg c).getLsbD line = false := by
  rw [← Bool.not_eq_true, Pnd.slotLines_getLsbD]
  rintro ⟨q, _, hlit⟩
  rcases (n.litLines_getLsbD cfg q line).mp hlit with ⟨_, hline⟩ | ⟨_, hline⟩
  · exact absurd (hline ▸ greenLine_lt cfg.layout q) (Nat.not_lt.mpr h)
  · exact absurd (hline ▸ redLine_lt cfg.layout q) (Nat.not_lt.mpr h)

end

/-! ### The events of the panel -/

section
variable {n : Pnd} {cfg : PanelCfg}

theorem Pnd.slotStart_driven (hcopy : n.copy = some cfg) (hc : n.common < cfg.layout.commons)
    (h : cfg.enable = true ∨ n.frameTest = true) : n.slotStart =
      { n with common := n.common + 1, pcom := some (Fin.ofNat 8 n.common), plin := n.slotLines cfg n.common } := by
  unfold Pnd.slotStart
  rw [hcopy]
  exact (if_pos hc).trans (if_pos h)

theorem Pnd.slotStart_dark (hcopy : n.copy = some cfg) (hc : n.common < cfg.layout.commons)
    (h : ¬(cfg.enable = true ∨ n.frameTest = true)) :
    n.slotStart = { n with common := n.common + 1, pcom := none, plin := 0 } := by
  unfold Pnd.slotStart
  rw [hcopy]
  exact (if_pos hc).trans (if_neg h)

theorem State.whileScanning_running {s : State} (h : s.pnd.scanning = true) (f : Pnd → Pnd) :
    s.whileScanning f = { s with pnd := f s.pnd } := if_pos h

theorem State.whileScanning_stopped {s : State} (h : s.pnd.scanning = false) (f : Pnd → Pnd) :
    s.whileScanning f = s := if_neg (by rw [h]; decide)

end

/-- Settles O50: each event of the running scan, a driven slot line by line, and the stopped scan. -/
theorem panelScan : Obligations.PanelScan := by
  intro s k n lines commons shown green red
  have hlines : lines = k.layout.lines := k.layout.lines_eq.symm
  have hcommons : commons = k.layout.commons := k.layout.commons_eq.symm
  refine ⟨rfl, fun hscan => ?_, fun hstop => ?_⟩
  · have hrun (f : Pnd → Pnd) : Host.Outcome.next (s.whileScanning f) = (.next { s with pnd := f n } : StepResult) :=
      congrArg _ (State.whileScanning_running hscan f)
    refine ⟨hrun _, hrun _, ?_, fun hcopy hc => ?_⟩
    · rw [← FlashPhase.next_eq]
      exact hrun _
    · rw [hcommons] at hc
      have hslot : exec .commonSlot s = .next { s with pnd := n.slotStart } := hrun _
      refine ⟨fun henable htest => ?_, fun hlit => ?_⟩
      · rw [hslot, Pnd.slotStart_dark hcopy hc (by simp [henable, htest])]
      · have hval : (Fin.ofNat 8 n.common).val = n.common := Nat.mod_eq_of_lt (hc.trans_le k.layout.commons_le)
        refine ⟨Fin.ofNat 8 n.common, n.slotLines k n.common, hval, ?_, fun p hp => ?_, fun line hline => ?_⟩
        · rw [hslot, Pnd.slotStart_driven hcopy hc hlit]
        · rw [hlines] at hp ⊢
          exact ⟨(n.slotLines_green k hp).trans (or_congr_right (Glyph.green_iff ..)),
            (n.slotLines_red k hp).trans (or_congr_right (Glyph.red_iff ..))⟩
        · exact n.slotLines_beyond k n.common (hlines ▸ hline)
  · have hstay (f : Pnd → Pnd) : (Host.Outcome.next (s.whileScanning f) : StepResult) = .next s :=
      congrArg _ (State.whileScanning_stopped hstop f)
    exact ⟨hstay _, hstay _, hstay _, hstay _⟩

end Sys2Proof.Machine
end

section
/-! SUPPORT. A door change in each power state, and the wake events of TRUNK, DOOR and BUCKLE (R169, R177, R184). -/

namespace Sys2Proof.Machine

section
variable {s : State} {ajar : Bool}

/-! ### A door change (R169, R177) -/

theorem execDoorChange_run (h : ajar ≠ s.pmg.doorOpen) (hp : s.pmg.power = .run) :
    exec (.doorChange ajar) s = .next (s.setDoor ajar) :=
  congrArg Host.Outcome.next ((if_neg h).trans (by rw [hp]))

theorem execDoorChange_parkWatch (h : ajar ≠ s.pmg.doorOpen) (hp : s.pmg.power = .parkWatch) :
    exec (.doorChange ajar) s = .next ((s.setDoor ajar).modPmg Pmg.dwellReview) :=
  congrArg Host.Outcome.next ((if_neg h).trans (by rw [hp]))

theorem execDoorChange_sleep (h : ajar ≠ s.pmg.doorOpen) (hp : s.pmg.power = .sleep) :
    exec (.doorChange ajar) s =
      .next (if ajar ∧ s.pmg.timing.wakeDoor then (s.setDoor ajar).wake fun c => { c with door := true }
        else s.setDoor ajar) :=
  congrArg Host.Outcome.next ((if_neg h).trans (by rw [hp]))

theorem execDoorChange_starting (h : ajar ≠ s.pmg.doorOpen) (hp : s.pmg.power = .starting) :
    exec (.doorChange ajar) s = .next s :=
  congrArg Host.Outcome.next ((if_neg h).trans (by rw [hp]))

/-- The dwell of PARK_WATCH after a door change: it stands and runs with the van locked and closed alone (R177). -/
theorem State.setDoor_dwellReview (hp : s.pmg.power = .parkWatch) :
    (s.setDoor ajar).modPmg Pmg.dwellReview = { s with pmg := { s.pmg with
      doorOpen := ajar
      dwell := if s.pmg.locked && !ajar then s.pmg.dwell else 0
      dwellTimer := s.pmg.locked && !ajar } } := by
  have hreview := Pmg.dwellReview_watch (m := { s.pmg with doorOpen := ajar }) hp
  have hdwell : (if ¬(s.pmg.locked = true ∧ ajar = false) then 0 else s.pmg.dwell) =
      if s.pmg.locked && !ajar then s.pmg.dwell else 0 :=
    (ite_not ..).trans (if_congr (by simp) rfl rfl)
  rw [← hdwell]
  exact congrArg (fun m => { s with pmg := m }) hreview

/-! ### The wake events (R184) -/

theorem execTrunkWake_enabled (hp : s.pmg.power = .sleep) (he : s.pmg.timing.wakeTrunk = true) :
    exec .trunkWake s = .next (s.wake fun c => { c with trunk := true }) :=
  congrArg Host.Outcome.next (if_pos ⟨hp, he⟩)

theorem execTrunkWake_disabled (he : s.pmg.timing.wakeTrunk = false) : exec .trunkWake s = .next s :=
  congrArg Host.Outcome.next (if_neg fun ⟨_, h⟩ => Bool.eq_false_iff.mp he h)

theorem execBuckleWake_enabled {front : Fin 2} (hp : s.pmg.power = .sleep) (he : s.pmg.timing.wakeBuckle = true)
    (hf : s.lsu.cfg.fitted front = true) :
    exec (.buckleWake front) s = .next (s.wake fun c => { c with buckle := true }) :=
  congrArg Host.Outcome.next (if_pos ⟨hp, he, hf⟩)

theorem execBuckleWake_disabled {front : Fin 2}
    (h : s.pmg.timing.wakeBuckle = false ∨ s.lsu.cfg.fitted front = false) :
    exec (.buckleWake front) s = .next s :=
  congrArg Host.Outcome.next <| if_neg fun ⟨_, he, hf⟩ =>
    h.elim (Bool.eq_false_iff.mp · he) (Bool.eq_false_iff.mp · hf)

end

/-- Settles O7: a door change power state by power state, then each wake source enabled and disabled. -/
theorem doorAndWakes : Obligations.DoorAndWakes := by
  refine ⟨fun s ajar hnew => ⟨execDoorChange_run hnew, fun hp => ?_, fun hp hquiet => ?_,
    execDoorChange_starting hnew⟩, fun s front hp hrest => ⟨fun he => ?_, execTrunkWake_disabled,
    fun he hshut => ?_, fun he hf => ?_, execBuckleWake_disabled⟩⟩
  · rw [execDoorChange_parkWatch hnew hp, State.setDoor_dwellReview hp]
  · have hstays : ¬(ajar = true ∧ s.pmg.timing.wakeDoor = true) := by
      rwa [← Bool.and_eq_true, Bool.not_eq_true]
    rw [execDoorChange_sleep hnew hp, if_neg hstays]
    rfl
  · rw [execTrunkWake_enabled hp he, State.wake_eq s _ hrest]
  · have hnew : true ≠ s.pmg.doorOpen := by rw [hshut]; decide
    rw [execDoorChange_sleep hnew hp, if_pos ⟨rfl, he⟩, State.wake_eq (s.setDoor true) _ hrest]
    rfl
  · rw [execBuckleWake_enabled hp he hf, State.wake_eq s _ hrest]

end Sys2Proof.Machine
end

section
/-! SUPPORT. The frame of a command on TRK_RX, read back byte for byte (R188 to R190, section 10.10). -/

namespace Sys2Proof

/-- The bytes of a frame under the envelope are one complete frame whose check holds (R188). -/
theorem trunkCommand_frameBytes (kind tag : Byte) {p : List Byte} (h : payloadFits p = true) :
    trunkCommand (frameBytes kind tag p) = some (kindCommand kind tag p) := by
  have hfits : p.length ≤ 48 := of_decide_eq_true h
  have hlen : (BitVec.ofNat 8 p.length).toNat = p.length := Nat.mod_eq_of_lt (by omega)
  have hchecks : ∀ n, (checkBytes n).length = 2 := fun _ => rfl
  have hmax : ¬Config.maxPayload < p.length := Nat.not_lt.mpr hfits
  simp [frameBytes, trunkCommand, hlen, hchecks, hmax]

/-- A kind code outside 0x01..0x12 is unknown (R190 test 3). -/
theorem kindCommand_unknown {kind : Byte} (tag : Byte) (p : List Byte) (h : inboundKind kind = false) :
    kindCommand kind tag p = .unknownKind kind tag := by
  have hout : ¬(1 ≤ kind.toNat ∧ kind.toNat ≤ 18) := by simpa [inboundKind] using h
  unfold kindCommand
  split
  case h_19 => rfl
  all_goals omega

/-- A TBLWR that names table 1, or no table, is the row TBLWR_NODE (log entry 10). -/
theorem tblwrCommand_node (tag : Byte) {p : List Byte} (h : nodeRowPayload p = true) :
    tblwrCommand tag p = .tblwrNode tag p := by
  match p with
  | [] => rfl
  | [_] => rfl
  | t :: i :: e =>
    have hid : t.toNat ≤ 1 ∨ 12 < t.toNat := by simpa [nodeRowPayload] using h
    unfold tblwrCommand
    dsimp only
    split
    case h_12 => rfl
    all_goals omega

/-- The table id and index of a TBLWR count toward its payload (R188, R193). -/
theorem payloadFits_entry {e : List Byte} (h : entryFits e = true) (id index : Byte) :
    payloadFits (id :: index :: e) = true := h

/-- Settles O60: the frame's bytes are read back as the command of their kind, and that is the command sent. -/
theorem framesDecode : Obligations.FramesDecode := by
  intro i f hw hf
  cases i
  case unknownKind kind tag =>
    cases hf
    rw [trunkCommand_frameBytes kind tag rfl, kindCommand_unknown tag [] (by simpa [Instr.wellFormed] using hw)]
  case tblwrNode tag p =>
    cases hf
    obtain ⟨hfits, hrow⟩ := Bool.and_eq_true_iff.mp hw
    exact (trunkCommand_frameBytes 0x02 tag hfits).trans (congrArg some (tblwrCommand_node tag hrow))
  case tblwrSeatmap | tblwrPoscfg | tblwrRule | tblwrProfile | tblwrRingA | tblwrRingB | tblwrSegcfg | tblwrLocalcfg |
      tblwrTiming | tblwrPanelcfg | tblwrProtect =>
    cases hf
    exact trunkCommand_frameBytes 0x02 _ (payloadFits_entry hw _ _)
  case vehstat | tblrd | posqry | nodereq | stage | commit | nvcancel | nverase | protload | callock | sleepreq |
      alertack | chimetst | paneltst | clrflag | identq | softrst =>
    cases hf
    exact trunkCommand_frameBytes _ _ hw
  all_goals cases hf

end Sys2Proof
end

section
/-! SUPPORT. The receiver's events, and the tests of a complete frame that stand before its owner (R189, R190, R204). -/

namespace Sys2Proof.Machine

/-! ### The receiver (R189, R190, R204) -/

section
variable {s : State}

theorem execFrameSync_sync (h : s.tkp.rx = .hunt) :
    exec (.frameSync 0xA5) s = .next { s with tkp := { s.tkp with rx := .inFrame } } :=
  congrArg Host.Outcome.next (if_pos ⟨h, rfl⟩)

theorem execFrameSync_other {b : Byte} (h : b ≠ 0xA5) : exec (.frameSync b) s = .next s :=
  congrArg Host.Outcome.next (if_neg fun ⟨_, e⟩ => h e)

theorem execFrameGapAbandon_inFrame (h : s.tkp.rx = .inFrame) :
    exec .frameGapAbandon s = .next s.abandonFrame :=
  congrArg Host.Outcome.next (if_pos h)

theorem execLengthAbandon_inFrame {l : Byte} (h : s.tkp.rx = .inFrame) (hl : 48 < l.toNat) :
    exec (.lengthAbandon l) s = .next s.abandonFrame :=
  congrArg Host.Outcome.next (if_pos ⟨h, hl⟩)

theorem execTrunkCheckFail_inFrame (h : s.tkp.rx = .inFrame) : exec .trunkCheckFail s = .next { s with
    tkp := { s.tkp with rx := .hunt, flags := { s.tkp.flags with badCheck := true } } } :=
  congrArg Host.Outcome.next (if_pos h)

theorem execRxHuntResume_waitIdle (h : s.tkp.rx = .waitIdle) :
    exec .rxHuntResume s = .next { s with tkp := { s.tkp with rx := .hunt } } :=
  congrArg Host.Outcome.next (if_pos h)

end

/-- Settles O9: each event in the receiver state in which it comes. -/
theorem receiverEvents : Obligations.ReceiverEvents := fun _ _ _ =>
  ⟨execFrameSync_sync, fun _ => execFrameSync_other, execFrameGapAbandon_inFrame, execLengthAbandon_inFrame,
    execTrunkCheckFail_inFrame, execRxHuntResume_waitIdle⟩

/-! ### A frame of an inbound kind (R190, tests 4 and 5) -/

/-- An end of a step that leaves every settled state as it is: a frame's command ends as it stands or in a settling. -/
def LeavesSettled (finish : State → State) : Prop := ∀ s : State, s.settled → finish s = s

theorem leavesSettled_id : LeavesSettled id := fun _ _ => rfl

theorem leavesSettled_settle : LeavesSettled State.settle := fun _ => State.settle_of_settled

/-- The command is the taking of a frame with the tests of R190 and an owner of its own. -/
def TakenAsFrame (c : Instr) (kind tag : Byte) : Prop :=
  ∃ (own : State → State) (finish : State → State), LeavesSettled finish ∧
    ∀ s : State, exec c s = .next (finish (s.takeFrame kind tag (lengthFits c) own))

section
variable {c : Instr} {kind tag : Byte} {own : State → State}

theorem TakenAsFrame.plain (h : ∀ s, exec c s = .next (s.takeFrame kind tag (lengthFits c) own)) :
    TakenAsFrame c kind tag := ⟨own, id, leavesSettled_id, h⟩

theorem TakenAsFrame.settling (h : ∀ s, exec c s = .next (s.takeFrame kind tag (lengthFits c) own).settle) :
    TakenAsFrame c kind tag := ⟨own, State.settle, leavesSettled_settle, h⟩

end

/-- The owner of a table takes its writes as frames (R193). -/
theorem State.takeWriteOf_eq (t : TableId) (tag index : Byte) (entry : List Byte) :
    ∃ own, ∀ s : State, s.takeWriteOf t tag index entry = s.takeWrite t tag index entry own := by
  cases t <;> exact ⟨_, fun _ => rfl⟩

/-- The row TBLWR_NODE is a frame whatever its payload names; under 2 bytes it does not fit its kind (R193). -/
theorem tblwrNode_takenAsFrame (tag : Byte) (p : List Byte) : TakenAsFrame (.tblwrNode tag p) 0x02 tag := by
  match p with
  | [] => exact .settling fun _ => rfl
  | [_] => exact .settling fun _ => rfl
  | id :: index :: entry =>
    cases ht : tableOfId id.toNat with
    | none =>
      refine .settling (own := fun s1 => s1.badTable.refuseTable tag Kind.tblwr id index .table) fun s => ?_
      show execTblwrNode tag (id :: index :: entry) s = _
      unfold execTblwrNode
      dsimp only
      rw [ht]
      rfl
    | some t =>
      obtain ⟨own, hown⟩ := State.takeWriteOf_eq t tag index entry
      refine .settling (own := fun s1 => s1.writeTable t tag index entry own) fun s => ?_
      show execTblwrNode tag (id :: index :: entry) s = _
      unfold execTblwrNode
      dsimp only
      rw [ht]
      exact congrArg (fun u : State => Host.Outcome.next u.settle) (hown s)

/-- Every command that needs a reply is taken as a frame of its kind and tag (R190, section 10.10). -/
theorem takenAsFrame_of_replyFrame {c : Instr} {kind tag : Byte} (h : replyFrame c = some (kind, tag)) :
    TakenAsFrame c kind tag := by
  cases c
  case tblwrNode =>
    cases h
    exact tblwrNode_takenAsFrame ..
  case tblwrSeatmap | tblwrPoscfg | tblwrProfile | tblwrSegcfg | tblwrLocalcfg =>
    cases h
    exact .settling fun _ => rfl
  case tblwrRule | tblwrRingA | tblwrRingB | tblwrTiming | tblwrPanelcfg | tblwrProtect | tblrd | posqry | stage |
      nverase | clrflag =>
    cases h
    exact .plain fun _ => rfl
  case nodereq _ p =>
    cases h
    refine .plain (own := fun s1 => s1.request tag (p.getD 0 0) (p.drop 1)) fun s => ?_
    rw [show lengthFits (.nodereq tag p) = decide (2 ≤ p.length ∧ p.length ≤ 9) from (Bool.decide_and ..).symm]
    rfl
  case commit _ p | nvcancel _ p | protload _ p | callock _ p | sleepreq _ p | alertack _ p | chimetst _ p |
      paneltst _ p | identq _ p | softrst _ p =>
    cases h
    cases p <;> exact .plain fun _ => rfl
  all_goals cases h

section
variable {c : Instr} {kind tag : Byte} {s : State}

/-- All places taken: the frame is discarded (R190 test 4, R191). -/
theorem TakenAsFrame.full (hc : TakenAsFrame c kind tag) (hrx : s.tkp.rx = .inFrame) (hs : s.settled)
    (hfull : 8 ≤ s.tkp.placesTaken) : exec c s = .next { s with tkp := { s.tkp with
      rx := .hunt, flags := { s.tkp.flags with replyOverrun := true } } } := by
  obtain ⟨own, finish, hfinish, hexec⟩ := hc
  rw [hexec, State.takeFrame_full hrx hfull]
  exact congrArg Host.Outcome.next (hfinish _ (State.settled_of_eq hs rfl rfl rfl))

theorem TakenAsFrame.starting (hc : TakenAsFrame c kind tag) (hrx : s.tkp.rx = .inFrame) (hs : s.settled)
    (hroom : s.tkp.placesTaken < 8) (hp : s.pmg.power = .starting) (hk : kind ≠ 0x11) :
    exec c s = .next (s.answered tag kind .starting []) := by
  obtain ⟨own, finish, hfinish, hexec⟩ := hc
  rw [hexec, State.takeFrame_starting hrx hroom hp hk]
  exact congrArg Host.Outcome.next (hfinish _ (State.answered_settled hs ..))

theorem TakenAsFrame.length (hc : TakenAsFrame c kind tag) (hrx : s.tkp.rx = .inFrame) (hs : s.settled)
    (hroom : s.tkp.placesTaken < 8) (hp : s.pmg.power ≠ .starting ∨ kind = 0x11) (hl : lengthFits c = false) :
    exec c s = .next (s.answered tag kind .length []) := by
  obtain ⟨own, finish, hfinish, hexec⟩ := hc
  rw [hexec, hl, State.takeFrame_length hrx hroom hp]
  exact congrArg Host.Outcome.next (hfinish _ (State.answered_settled hs ..))

/-! ### A frame of an unknown kind (R190, tests 2 and 3) -/

theorem inboundKind_eq_false (h : kind = 0 ∨ 0x12 < kind.toNat) : inboundKind kind = false := by
  rcases h with rfl | h
  · rfl
  · simp [inboundKind, h]

theorem execUnknownKind_eq (hrx : s.tkp.rx = .inFrame) (hk : inboundKind kind = false) (tag : Byte) :
    exec (.unknownKind kind tag) s = .next (
      if 8 ≤ s.tkp.placesTaken then { s with tkp := { s.tkp with
        rx := .hunt, flags := { s.tkp.flags with badKind := true, replyOverrun := true } } }
      else { s with tkp := { s.tkp with flags := { s.tkp.flags with badKind := true } } }.answered tag kind .unknown
        []) :=
  congrArg Host.Outcome.next (if_pos ⟨hrx, hk⟩)

end

/-- Settles O10: the tests that every frame passes through, then a frame of an unknown kind by the places taken. -/
theorem frameTests : Obligations.FrameTests := by
  refine ⟨fun s c kind tag hc hrx hs hfull => ?_, fun s c kind tag hc hrx hs hroom => ⟨fun hp hk => ?_, fun hp hl => ?_⟩,
    fun s kind tag hrx hk => ⟨fun hroom => ?_, fun hfull => ?_⟩⟩
  · exact (takenAsFrame_of_replyFrame hc).full hrx hs hfull
  · exact (takenAsFrame_of_replyFrame hc).starting hrx hs hroom hp hk
  · exact (takenAsFrame_of_replyFrame hc).length hrx hs hroom hp hl
  · rw [execUnknownKind_eq hrx (inboundKind_eq_false hk), if_neg (Nat.not_le.mpr hroom)]
  · rw [execUnknownKind_eq hrx (inboundKind_eq_false hk), if_pos hfull]

end Sys2Proof.Machine
end

section
/-! SUPPORT. A TBLWR that reaches its table, refused before its owner sees the entry (R193). -/

namespace Sys2Proof.Machine

section
variable {s : State} {t : TableId} {tag index : Byte} {entry : List Byte}
  {own : Nat → List Byte → State → Except Status State}

theorem State.writeTable_range (hi : t.count ≤ index.toNat) :
    s.writeTable t tag index entry own = s.refuseTable tag Kind.tblwr (byte t.id) index .range :=
  if_pos hi

theorem State.writeTable_length (hi : index.toNat < t.count) (hl : entry.length ≠ t.entrySize) :
    s.writeTable t tag index entry own = s.refuseTable tag Kind.tblwr (byte t.id) index .length :=
  (if_neg (Nat.not_le.mpr hi)).trans (if_pos hl)

theorem State.writeTable_protected (hi : index.toNat < t.count) (hl : entry.length = t.entrySize)
    (hp : s.cfs.protects t = true) :
    s.writeTable t tag index entry own = s.refuseTable tag Kind.tblwr (byte t.id) index .isProtected :=
  (if_neg (Nat.not_le.mpr hi)).trans ((if_neg (not_not_intro hl)).trans (if_pos hp))

/-- A TBLWR that names a table is a write by that table's owner, with or without a settling at its end (R193). -/
theorem exec_writeOf (t : TableId) (tag index : Byte) (entry : List Byte) :
    ∃ (own : Nat → List Byte → State → Except Status State) (finish : State → State), LeavesSettled finish ∧
      ∀ s : State, exec (writeOf t tag index.toNat entry) s = .next (finish (s.takeWrite t tag index entry own)) := by
  have hindex : byte index.toNat = index := BitVec.ofNat_toNat ..
  unfold writeOf
  rw [hindex]
  cases t
  case node | seatmap | poscfg | profile | segcfg | localcfg =>
    exact ⟨_, State.settle, leavesSettled_settle, fun _ => rfl⟩
  case rule | ringA | ringB | timing | panelcfg | protect =>
    exact ⟨_, id, leavesSettled_id, fun _ => rfl⟩

/-- A write that the checks of R193 refuse answers with table id and index and changes nothing else (R192). -/
theorem exec_writeOf_refused (ht : s.takes) (hs : s.settled) {st : Status}
    (h : ∀ own, s.rxHunt.writeTable t tag index entry own =
      s.rxHunt.refuseTable tag Kind.tblwr (byte t.id) index st) :
    exec (writeOf t tag index.toNat entry) s = .next (s.answered tag 0x02 st [byte t.id, index]) := by
  obtain ⟨own, finish, hfinish, hexec⟩ := exec_writeOf t tag index entry
  rw [hexec, State.takeWrite, ht.own, h, State.rxHunt_refuseTable]
  exact congrArg Host.Outcome.next (hfinish _ (State.answered_settled hs ..))

/-- A TBLWR of no table sets BAD_TABLE and is refused TABLE (R193, R196). -/
theorem execTblwrNode_badTable (ht : s.takes) (hs : s.settled) {id : Byte} (hid : id = 0 ∨ 12 < id.toNat) :
    exec (.tblwrNode tag (id :: index :: entry)) s = .next
      ({ s with tkp := { s.tkp with flags := { s.tkp.flags with badTable := true } } }.answered tag 0x02 .table
        [id, index]) := by
  show execTblwrNode tag (id :: index :: entry) s = _
  unfold execTblwrNode
  dsimp only
  rw [tableOfId_none (hid.imp_left fun e => by rw [e]; rfl)]
  dsimp only
  rw [ht.own]
  exact congrArg Host.Outcome.next (State.settle_of_settled (State.settled_of_eq hs rfl rfl rfl))

end

/-- Settles O12: the three refusals in their order, then a table id that names no table. -/
theorem tableWriteRefusals : Obligations.TableWriteRefusals := by
  intro s t tag index entry ht hs
  refine ⟨fun hi => ?_, fun hi hl => ?_, fun hi hl hp => ?_, fun id hid => execTblwrNode_badTable ht hs hid⟩
  · exact exec_writeOf_refused ht hs fun _ => State.writeTable_range hi
  · exact exec_writeOf_refused ht hs fun _ => State.writeTable_length hi hl
  · exact exec_writeOf_refused ht hs fun _ => State.writeTable_protected (s := s.rxHunt) hi hl hp

end Sys2Proof.Machine
end

section
/-! SUPPORT. The store commands and the completions of the store's operations (R207 to R212). -/

namespace Sys2Proof.Machine

/-! ### STAGE (R207) -/

theorem Staged.table_entryToStage (s : State) (t : TableId) (n : Nat) : (s.entryToStage t n).table = t := by
  cases t <;> rfl

/-- The staged copy keeps an index that the table has; the tables of one entry have index 0 alone. -/
theorem Staged.index_entryToStage (s : State) {t : TableId} {n : Nat} (h : n < t.count) :
    (s.entryToStage t n).index = n := by
  cases t
  case localcfg | timing | panelcfg | protect => exact (Nat.lt_one_iff.mp h).symm
  all_goals exact Nat.mod_eq_of_lt h

section
variable {s : State}

theorem State.entryToStage_rxHunt (t : TableId) (n : Nat) : s.rxHunt.entryToStage t n = s.entryToStage t n := by
  cases t <;> rfl

theorem execStage_takes (ht : s.takes) (tag id index : Byte) :
    exec (.stage tag [id, index]) s = .next (s.rxHunt.stageEntry tag id index) :=
  congrArg Host.Outcome.next ht.own

theorem execStage_badTable (ht : s.takes) (tag index : Byte) {id : Byte} (hid : id = 0 ∨ 12 < id.toNat) :
    exec (.stage tag [id, index]) s = .next
      ({ s with tkp := { s.tkp with flags := { s.tkp.flags with badTable := true } } }.answered tag 0x06 .table []) := by
  rw [execStage_takes ht]
  unfold State.stageEntry
  rw [tableOfId_none (hid.imp_left fun e => by rw [e]; rfl)]
  rfl

/-- STAGE of a table by its id: the index, then the operation in flight, then the copy (R193, R207). -/
theorem execStage_eq (ht : s.takes) (tag index : Byte) (t : TableId) :
    exec (.stage tag [byte t.id, index]) s = .next (
      if t.count ≤ index.toNat then s.answered tag 0x06 .range []
      else if s.cfs.op ≠ .idle then s.answered tag 0x06 .busy []
      else { s with cfs := { s.cfs with staging := some (s.entryToStage t index.toNat) } }.answered tag 0x06 .ok
        (byte t.id :: index :: s.entryBytes t index.toNat)) := by
  rw [execStage_takes ht]
  unfold State.stageEntry
  rw [tableOfId_id]
  dsimp only
  rw [State.entryToStage_rxHunt, State.entryBytes_rxHunt]
  rfl

/-! ### COMMIT (R208) -/

theorem execCommit_refused (ht : s.takes) (tag : Byte) {st : Status} (h : s.cfs.commitRefusal = some st) :
    exec (.commit tag []) s = .next (s.answered tag 0x07 st []) := by
  have h' : s.rxHunt.cfs.commitRefusal = some st := h
  refine congrArg Host.Outcome.next (ht.own.trans ?_)
  rw [h']
  rfl

theorem execCommit_accepted (ht : s.takes) (tag : Byte) (h : s.cfs.commitRefusal = none) :
    exec (.commit tag []) s = .next (s.reserved tag 0x07 .commit) := by
  have h' : s.rxHunt.cfs.commitRefusal = none := h
  refine congrArg Host.Outcome.next (ht.own.trans ?_)
  rw [h']
  rfl

theorem Cfs.commitRefusal_none {c : Cfs} (h : c.staging = none) : c.commitRefusal = some .notStaged := by
  unfold Cfs.commitRefusal
  rw [h]

theorem Cfs.commitRefusal_some {c : Cfs} {e : Staged} (h : c.staging = some e) :
    c.commitRefusal =
      if c.op ≠ .idle then some .busy
      else if c.protects e.table then some .isProtected
      else if e.table = .protect ∧ c.store.lock then some .locked
      else none := by
  unfold Cfs.commitRefusal
  rw [h]

/-- PROTECT lies in the control record and in no region (R205). -/
theorem Cfs.protects_protect (c : Cfs) : c.protects .protect = false := rfl

end

/-- Settles O24: STAGE by its checks, COMMIT by the first check that refuses it. -/
theorem stageAndCommit : Obligations.StageAndCommit := by
  refine ⟨fun s tag id index t ht => ⟨execStage_badTable ht tag index, fun hi => ?_, fun hi hop => ?_, fun hi hop => ?_⟩,
    fun s tag e ht => ⟨fun hst => ?_, fun hst => ?_⟩⟩
  · rw [execStage_eq ht, if_pos hi]
  · rw [execStage_eq ht, if_neg (Nat.not_le.mpr hi), if_pos hop]
  · refine ⟨_, Staged.table_entryToStage s t _, Staged.index_entryToStage s hi, rfl, ?_⟩
    rw [execStage_eq ht, if_neg (Nat.not_le.mpr hi), if_neg (not_not_intro hop)]
  · exact execCommit_refused ht tag (Cfs.commitRefusal_none hst)
  have hchecks := Cfs.commitRefusal_some hst
  refine ⟨fun hop => ?_, fun hop hp => ?_, fun hop hpt hlock => ?_, fun hop hp hfree => ?_⟩
  · exact execCommit_refused ht tag (hchecks.trans (if_pos hop))
  · rw [if_neg (not_not_intro hop), if_pos hp] at hchecks
    exact execCommit_refused ht tag hchecks
  · rw [if_neg (not_not_intro hop), hpt, Cfs.protects_protect, if_neg Bool.false_ne_true, if_pos ⟨rfl, hlock⟩]
      at hchecks
    exact execCommit_refused ht tag hchecks
  · have hunlocked : ¬(e.table = .protect ∧ s.cfs.store.lock = true) := fun ⟨hpt, hlock⟩ =>
      hfree.elim (· hpt) (Bool.eq_false_iff.mp · hlock)
    rw [if_neg (not_not_intro hop), hp, if_neg Bool.false_ne_true, if_neg hunlocked] at hchecks
    exact execCommit_accepted ht tag hchecks

/-! ### NVCANCEL (R209) -/

section
variable {s : State}

/-- The end of an operation leaves its change of the store and fills the reserved place with its REPLY (R191). -/
theorem State.fillReserved_eq {r : Reserved} (h : s.tkp.reserved = some r) (c : Cfs) (st : Status) (body : List Byte) :
    { s with cfs := c }.fillReserved st body = { s with
      cfs := c
      tkp := { s.tkp with
        reserved := none
        replies := s.tkp.replies ++ [{ tag := r.tag, kind := r.kind, status := st, body := body }] } } := by
  unfold State.fillReserved
  dsimp only
  rw [h]
  rfl

theorem Cfs.eraseTarget_some {c : Cfs} {e : Staged} (h : c.staging = some e) :
    c.eraseTarget = c.store.record false e := by
  unfold Cfs.eraseTarget
  rw [h]

/-- A cancelled commit leaves its target erased and its own place filled CANCELLED (R209). -/
theorem State.cancelCommit_eq {e : Staged} {r : Reserved} (hst : s.cfs.staging = some e)
    (hres : s.tkp.reserved = some r) : s.cancelCommit = { s with
      cfs := { s.cfs with store := s.cfs.store.record false e, op := .idle }
      tkp := { s.tkp with
        reserved := none
        replies := s.tkp.replies ++ [{ tag := r.tag, kind := r.kind, status := .cancelled, body := [] }] } } := by
  rw [← Cfs.eraseTarget_some hst]
  exact State.fillReserved_eq hres ..

theorem execNvcancel_idle (ht : s.takes) (tag : Byte) (h : s.cfs.op = .idle) :
    exec (.nvcancel tag []) s = .next
      ({ s with cfs := { s.cfs with staging := none } }.answered tag 0x08 .ok []) := by
  have h' : s.rxHunt.cfs.op = .idle := h
  refine congrArg Host.Outcome.next (ht.own.trans ?_)
  rw [h']
  rfl

theorem execNvcancel_committing (ht : s.takes) (tag : Byte) (h : s.cfs.op = .running .commit) :
    exec (.nvcancel tag []) s = .next (s.rxHunt.cancelCommit.reply tag 0x08 .ok []) := by
  have h' : s.rxHunt.cfs.op = .running .commit := h
  refine congrArg Host.Outcome.next (ht.own.trans ?_)
  rw [h']
  rfl

theorem execNvcancel_busy (ht : s.takes) (tag : Byte) {op : StoreOp} (h : s.cfs.op = .running op)
    (hop : op ≠ .commit) : exec (.nvcancel tag []) s = .next (s.answered tag 0x08 .busy []) := by
  have h' : s.rxHunt.cfs.op = .running op := h
  refine congrArg Host.Outcome.next (ht.own.trans ?_)
  rw [h']
  cases op
  case commit => exact absurd rfl hop
  all_goals rfl

end

/-- Settles O25: NVCANCEL by the state of the store; a commit's own place is filled before the OK. -/
theorem cancelCommit : Obligations.CancelCommit := by
  intro s tag e r ht
  refine ⟨execNvcancel_idle ht tag, fun hop hst hres => ?_, fun hop => ?_⟩
  · rw [execNvcancel_committing ht tag hop, State.cancelCommit_eq (s := s.rxHunt) hst hres]
    rfl
  · rcases hop with ⟨k, hop⟩ | hop
    · exact execNvcancel_busy ht tag hop nofun
    · exact execNvcancel_busy ht tag hop nofun

/-! ### NVERASE, PROTLOAD and CALLOCK (R210, R211) -/

section
variable {s : State}

theorem execNverase_refused (ht : s.takes) (tag : Byte) {b : Byte} {st : Status}
    (h : s.cfs.eraseRefusal b.toNat = some st) :
    exec (.nverase tag [b]) s = .next (s.answered tag 0x09 st []) := by
  have h' : s.rxHunt.cfs.eraseRefusal (u8 [b] 0) = some st := h
  refine congrArg Host.Outcome.next (ht.own.trans ?_)
  rw [h']
  rfl

theorem region_byte (r : Fin 4) : (byte r.val).toNat = r.val := byte_toNat (by omega)

theorem execNverase_accepted (ht : s.takes) (tag : Byte) {r : Fin 4} (h : s.cfs.eraseRefusal r.val = none) :
    exec (.nverase tag [byte r.val]) s = .next (s.reserved tag 0x09 (.erase r)) := by
  have hu : u8 [byte r.val] 0 = r.val := region_byte r
  have h' : s.rxHunt.cfs.eraseRefusal (u8 [byte r.val] 0) = none := by rw [hu]; exact h
  refine congrArg Host.Outcome.next (ht.own.trans ?_)
  rw [h', hu, ofNat_fin]
  rfl

theorem Cfs.eraseRefusal_range (c : Cfs) {n : Nat} (h : 3 < n) : c.eraseRefusal n = some .range := if_pos h

/-- NVERASE of one of the four regions: lock, protection, operation in flight (R210). -/
theorem Cfs.eraseRefusal_region (c : Cfs) (r : Fin 4) :
    c.eraseRefusal r.val =
      if c.store.lock then some .locked
      else if c.effective.getLsbD r.val then some .isProtected
      else if c.op ≠ .idle then some .busy
      else none :=
  if_neg (by omega)

theorem execProtload_busy (ht : s.takes) (tag : Byte) (h : s.cfs.op ≠ .idle) :
    exec (.protload tag []) s = .next (s.answered tag 0x0A .busy []) :=
  congrArg Host.Outcome.next (ht.own.trans (if_pos h))

theorem execProtload_idle (ht : s.takes) (tag : Byte) (h : s.cfs.op = .idle) :
    exec (.protload tag []) s = .next
      ({ s with cfs := s.cfs.protload }.answered tag 0x0A .ok [byte s.cfs.protload.effective.toNat]) :=
  congrArg Host.Outcome.next (ht.own.trans (if_neg (not_not_intro h)))

theorem execCallock_eq (ht : s.takes) (tag : Byte) :
    exec (.callock tag []) s = .next (
      if s.cfs.store.lock then s.answered tag 0x0B .ok []
      else if s.cfs.op ≠ .idle then s.answered tag 0x0B .busy []
      else s.reserved tag 0x0B .lock) :=
  congrArg Host.Outcome.next ht.own

end

/-- Settles O26: the first check that refuses an NVERASE; PROTLOAD and CALLOCK by the operation in flight and the
lock. -/
theorem eraseAndProtection : Obligations.EraseAndProtection := by
  refine ⟨fun s tag b r ht => ⟨fun hb => ?_, fun hlock => ?_, fun hlock => ?_⟩,
    fun s tag ht => ⟨execProtload_busy ht tag, fun hop => ?_, fun hlock => ?_, fun hlock hop => ?_, fun hlock hop => ?_⟩⟩
  · exact execNverase_refused ht tag (Cfs.eraseRefusal_range _ hb)
  · refine execNverase_refused ht tag ?_
    rw [region_byte, Cfs.eraseRefusal_region, if_pos hlock]
  · have hchecks := s.cfs.eraseRefusal_region r
    rw [hlock, if_neg Bool.false_ne_true] at hchecks
    refine ⟨fun hp => ?_, fun hp => ⟨fun hop => ?_, fun hop => ?_⟩⟩
    · refine execNverase_refused ht tag ?_
      rw [region_byte, hchecks, if_pos hp]
    · refine execNverase_refused ht tag ?_
      rw [region_byte, hchecks, hp, if_neg Bool.false_ne_true, if_pos hop]
    · refine execNverase_accepted ht tag ?_
      rw [hchecks, hp, if_neg Bool.false_ne_true, if_neg (not_not_intro hop)]
  · exact ⟨_, effectiveOf_getLsbD s.cfs.store.lock s.cfs.store.word, execProtload_idle ht tag hop⟩
  · rw [execCallock_eq ht, if_pos hlock]
  · rw [execCallock_eq ht, hlock, if_neg Bool.false_ne_true, if_pos hop]
  · rw [execCallock_eq ht, hlock, if_neg Bool.false_ne_true, if_neg (not_not_intro hop)]

/-! ### The completions (R208, R210, R211) -/

section
variable {s : State}

theorem execCommitComplete_committing {e : Staged} (hop : s.cfs.op = .running .commit) (hst : s.cfs.staging = some e)
    (same : Bool) : exec (.commitComplete same) s = .next (
      if same then { s with cfs := s.cfs.committed e }.fillReserved .ok [byte e.table.id, byte e.index]
      else { s with cfs := s.cfs.commitFailed e }.fillReserved .failed []) := by
  show execCommitComplete same s = _
  unfold execCommitComplete
  rw [hop, hst]

theorem execEraseComplete_erasing {k : Fin 4} (hop : s.cfs.op = .running (.erase k)) :
    exec .eraseComplete s = .next
      ({ s with cfs := { s.cfs with store := s.cfs.store.eraseRegion k, op := .idle } }.fillReserved .ok []) := by
  show execEraseComplete s = _
  unfold execEraseComplete
  rw [hop]

theorem execLockComplete_locking (hop : s.cfs.op = .running .lock) :
    exec .lockComplete s = .next ({ s with cfs := s.cfs.lockDone }.fillReserved .ok []) := by
  show execLockComplete s = _
  unfold execLockComplete
  rw [hop]

end

/-- Settles O27: each completion changes the store and fills the reserved place. -/
theorem storeCompletions : Obligations.StoreCompletions := by
  intro s e k q hres filled
  refine ⟨fun hop hst => ⟨?_, ?_⟩, fun hop => ?_, fun hop => ?_⟩
  · rw [execCommitComplete_committing hop hst, if_pos rfl, State.fillReserved_eq hres]
    rfl
  · rw [execCommitComplete_committing hop hst, if_neg Bool.false_ne_true, State.fillReserved_eq hres]
    rfl
  · rw [execEraseComplete_erasing hop, State.fillReserved_eq hres]
  · refine ⟨_, effectiveOf_getLsbD true s.cfs.effective, ?_⟩
    rw [execLockComplete_locking hop, State.fillReserved_eq hres]
    rfl

end Sys2Proof.Machine
end

section
/-! SUPPORT. CLRFLAG block by block, and the identity that IDENTQ tells (R196 to R198). -/

namespace Sys2Proof.Machine

section
variable {s t : State} {tag block mask : Byte} {code : Nat}

/-- CLRFLAG of a block clears the block's flags and tells those that stand (R198). -/
theorem execClrflag_cleared (ht : s.takes) (h : s.rxHunt.clearFlags block mask = some (t, code)) :
    exec (.clrflag tag [block, mask]) s = .next (t.reply tag 0x10 .ok [byte code]) := by
  have h' : s.rxHunt.clearFlags ([block, mask].getD 0 0) ([block, mask].getD 1 0) = some (t, code) := h
  refine congrArg Host.Outcome.next (ht.own.trans ?_)
  rw [h']
  rfl

theorem execClrflag_range (ht : s.takes) (h : s.rxHunt.clearFlags block mask = none) :
    exec (.clrflag tag [block, mask]) s = .next (s.answered tag 0x10 .range []) := by
  have h' : s.rxHunt.clearFlags ([block, mask].getD 0 0) ([block, mask].getD 1 0) = none := h
  refine congrArg Host.Outcome.next (ht.own.trans ?_)
  rw [h']
  rfl

/-- Block codes above 4 name no block (section 10.10). -/
theorem State.clearFlags_none (h : 4 < block.toNat) : s.clearFlags block mask = none := by
  unfold State.clearFlags
  split
  case h_6 => rfl
  all_goals omega

theorem State.clearFlags_tkp (s : State) (mask : Byte) : s.clearFlags 0 mask =
    some (s.modFlags fun f => f.cleared mask, (s.tkp.flags.cleared mask).code) := rfl

theorem State.clearFlags_seg (s : State) (g : Seg) (mask : Byte) : s.clearFlags (if g = .a then 1 else 2) mask =
    some (s.setSeg g ((s.seg g).clearFlags mask), ((s.seg g).clearFlags mask).flagCode) := by cases g <;> rfl

theorem State.clearFlags_lsu (s : State) (mask : Byte) : s.clearFlags 3 mask =
    some ({ s with lsu := s.lsu.clearFlags mask }, (s.lsu.clearFlags mask).flagCode) := rfl

theorem State.clearFlags_cfs (s : State) (mask : Byte) : s.clearFlags 4 mask =
    some (s.modCfs fun c => c.clearFlags mask, (s.cfs.clearFlags mask).flagCode) := rfl

theorem execIdentq_inFrame (hrx : s.tkp.rx = .inFrame) (hroom : s.tkp.placesTaken < 8) :
    exec (.identq tag []) s = .next (s.answered tag 0x11 .ok s.identBytes) :=
  congrArg Host.Outcome.next (State.takeFrame_own hrx hroom (.inr rfl))

end

/-- Settles O29: CLRFLAG block by block, IDENTQ past the test of STARTING. -/
theorem flagsAndIdentity : Obligations.FlagsAndIdentity := by
  refine ⟨fun s tag b mask ht => ⟨fun hb => ?_, ?_, fun g => ?_, ?_, ?_⟩, fun s tag hrx hroom => ?_⟩
  · exact execClrflag_range ht (State.clearFlags_none hb)
  · exact execClrflag_cleared ht (State.clearFlags_tkp ..)
  · rw [execClrflag_cleared ht (State.clearFlags_seg ..), State.rxHunt_setSeg_reply, State.rxHunt_seg]
    rfl
  · exact execClrflag_cleared ht (State.clearFlags_lsu ..)
  · exact execClrflag_cleared ht (State.clearFlags_cfs ..)
  · exact execIdentq_inFrame hrx hroom

end Sys2Proof.Machine
end

section
/-! SUPPORT. The store after a hard reset, and the load of NODE, SEATMAP and RULE: an entry that conflicts with none
stored before it is kept (R206, R212). -/

namespace Sys2Proof.Machine

/-! ### What a hard reset leaves of an operation (R212) -/

section
variable {c : Cfs} {s : State}

theorem Cfs.interrupted_idle (h : c.op = .idle) : c.interrupted = c.store := by
  unfold Cfs.interrupted
  rw [h]

theorem Cfs.interrupted_commit {st : Staged} (h : c.op = .running .commit ∨ c.op = .suspended .commit)
    (hst : c.staging = some st) : c.interrupted = c.store.record false st := by
  rw [← Cfs.eraseTarget_some hst]
  unfold Cfs.interrupted
  rcases h with h | h <;> rw [h]

theorem Cfs.interrupted_erase {r : Fin 4} (h : c.op = .running (.erase r) ∨ c.op = .suspended (.erase r)) :
    c.interrupted = c.store.eraseRegion r := by
  unfold Cfs.interrupted
  rcases h with h | h <;> rw [h]

theorem Cfs.interrupted_lock (h : c.op = .running .lock ∨ c.op = .suspended .lock) : c.interrupted = c.store := by
  unfold Cfs.interrupted
  rcases h with h | h <;> rw [h]

theorem allErased_replicate {α : Type} {n : Nat} : allErased (Vector.replicate n (none : Option α)) = true := by
  simp [allErased]

theorem Store.regionErased_eraseRegion (st : Store) (r : Fin 4) : (st.eraseRegion r).regionErased r = true := by
  match r with
  | 0 | 1 | 2 | 3 => simp [Store.eraseRegion, Store.regionErased, Store.erased, allErased_replicate]

/-- A hard reset boots from the store that is left of the operation (R206, R212). -/
theorem execHardReset_store (s : State) :
    ∃ t, exec .hardReset s = .next t ∧ t.cfs.store = s.cfs.interrupted := ⟨_, rfl, rfl⟩

theorem execHardReset_idle (h : s.cfs.op = .idle) :
    exec .hardReset s = .next (State.boot s.cfs.store s.pending s.free) := by
  rw [← Cfs.interrupted_idle h]
  rfl

end

/-- Settles O3: the boot of the stored records table by table, and the store that each operation leaves. -/
theorem hardResetLoads : Obligations.HardResetLoads := by
  refine ⟨fun s hop => ⟨_, execHardReset_idle hop, rfl, fun i => loadPlain_get .., fun i => loadPlain_get ..,
    fun i => ⟨loadPlain_get .., loadPlain_get ..⟩, rfl, rfl, rfl, rfl, rfl, rfl, fun r => effectiveOf_getLsbD ..,
    fun r => Store.summary_getLsbD ..⟩, fun s => ⟨fun st hop hst => ?_, fun r hop => ?_, fun hop => ?_⟩⟩
  all_goals obtain ⟨t, ht, hstore⟩ := execHardReset_store s
  · exact ⟨t, ht, hstore.trans (Cfs.interrupted_commit hop hst)⟩
  · have herased := hstore.trans (Cfs.interrupted_erase hop)
    exact ⟨t, ht, herased, herased ▸ Store.regionErased_eraseRegion ..⟩
  · exact ⟨t, ht, hstore.trans (Cfs.interrupted_lock hop)⟩

/-! ### The load in rising index order (R206) -/

/-- The table after the record at `i` was taken. -/
def loadEntry {α : Type} {n : Nat} (conflict : Vector α n → Fin n → α → Bool) (stored : Vector (Option α) n)
    (kept : Vector α n) (i : Fin n) : Vector α n :=
  match stored[i] with
  | some e => if conflict kept i e then kept else put kept i e
  | none => kept

/-- A table as the load may hold it before the record at `i`: every entry is invalid, or an earlier stored one. -/
def loadedBefore {α : Type} {n : Nat} (invalid : α) (stored : Vector (Option α) n) (i : Fin n) (kept : Vector α n) :
    Prop :=
  ∀ j : Fin n, kept[j] = invalid ∨ j < i ∧ stored[j] = some kept[j]

section
variable {α : Type} {n : Nat} {invalid e : α} {conflict : Vector α n → Fin n → α → Bool}
  {stored : Vector (Option α) n} {kept : Vector α n} {i : Fin n}

theorem loadKept_eq_foldl : loadKept invalid conflict stored =
    (List.finRange n).foldl (loadEntry conflict stored) (Vector.replicate n invalid) := rfl

theorem loadEntry_free (he : stored[i] = some e) (hc : conflict kept i e = false) :
    loadEntry conflict stored kept i = put kept i e := by
  unfold loadEntry
  rw [he]
  exact if_neg (Bool.eq_false_iff.mp hc)

/-- Taking a record leaves the table, or puts the record at its own index. -/
theorem loadEntry_cases (conflict : Vector α n → Fin n → α → Bool) (stored : Vector (Option α) n) (kept : Vector α n)
    (i : Fin n) : loadEntry conflict stored kept i = kept ∨
      ∃ e, stored[i] = some e ∧ loadEntry conflict stored kept i = put kept i e := by
  unfold loadEntry
  split
  next e he =>
    split
    · exact .inl rfl
    · exact .inr ⟨e, he, rfl⟩
  next => exact .inl rfl

theorem loadEntry_get_ne {j : Fin n} (h : j ≠ i) : (loadEntry conflict stored kept i)[j] = kept[j] := by
  rcases loadEntry_cases conflict stored kept i with hk | ⟨e, -, hk⟩
  · rw [hk]
  · rw [hk, put_get_ne _ _ h]

theorem foldl_loadEntry_get_of_notMem {is : List (Fin n)} (h : i ∉ is) :
    (is.foldl (loadEntry conflict stored) kept)[i] = kept[i] := by
  induction is generalizing kept with
  | nil => rfl
  | cons k is ih =>
    obtain ⟨hk, hi⟩ := not_or.mp (mt List.mem_cons.mpr h)
    rw [List.foldl_cons, ih hi, loadEntry_get_ne hk]

theorem loadedBefore_replicate (i : Fin n) : loadedBefore invalid stored i (Vector.replicate n invalid) :=
  fun j => .inl (replicate_get invalid j)

theorem loadedBefore_loadEntry {k : Fin n} (hk : loadedBefore invalid stored i kept) (h : k < i) :
    loadedBefore invalid stored i (loadEntry conflict stored kept k) := by
  rcases loadEntry_cases conflict stored kept k with hkept | ⟨e, he, hput⟩
  · rwa [hkept]
  · rw [hput]
    intro j
    by_cases hj : j = k
    · subst hj
      rw [put_get_self]
      exact .inr ⟨h, he⟩
    · rw [put_get_ne _ _ hj]
      exact hk j

theorem foldl_loadEntry_get {is : List (Fin n)} (hsort : is.Pairwise (· < ·))
    (hkept : loadedBefore invalid stored i kept) (hi : i ∈ is) (he : stored[i] = some e)
    (hfree : ∀ kept, loadedBefore invalid stored i kept → conflict kept i e = false) :
    (is.foldl (loadEntry conflict stored) kept)[i] = e := by
  induction is generalizing kept with
  | nil => exact absurd hi List.not_mem_nil
  | cons k is ih =>
    obtain ⟨hlt, hsort⟩ := List.pairwise_cons.mp hsort
    rw [List.foldl_cons]
    rcases List.mem_cons.mp hi with rfl | hi
    · rw [foldl_loadEntry_get_of_notMem fun h => lt_irrefl _ (hlt _ h), loadEntry_free he (hfree kept hkept),
        put_get_self]
    · exact ih hsort (loadedBefore_loadEntry hkept (hlt i hi)) hi

/-- A stored record that conflicts with no table of earlier records is loaded (R206). -/
theorem loadKept_get_of_free (he : stored[i] = some e)
    (hfree : ∀ kept, loadedBefore invalid stored i kept → conflict kept i e = false) :
    (loadKept invalid conflict stored)[i] = e := by
  rw [loadKept_eq_foldl]
  exact foldl_loadEntry_get (List.pairwise_lt_finRange n) (loadedBefore_replicate i) (List.mem_finRange i) he hfree

end

/-! ### Entries that conflict with none stored before them (R18, R49, R110) -/

theorem nodeDuplicate_loadedBefore {stored : Vector (Option NodeEntry) 16} {kept : Vector NodeEntry 16} {i : Fin 16}
    {e : NodeEntry} (hkept : loadedBefore NodeEntry.invalid stored i kept)
    (hfree : ∀ (j : Fin 16) (f : NodeEntry), j < i → stored[j] = some f → f.valid = true → f.serial ≠ e.serial) :
    nodeDuplicate kept i e = false := by
  refine Bool.eq_false_iff.mpr fun hd => ?_
  obtain ⟨-, j, -, hv, hserial⟩ := nodeDuplicate_iff.mp hd
  rcases hkept j with hinv | ⟨hj, hs⟩
  · rw [hinv] at hv
    cases hv
  · exact hfree j _ hj hs hv hserial

theorem seatDuplicate_loadedBefore {stored : Vector (Option SeatMapEntry) 24} {kept : Vector SeatMapEntry 24}
    {i : Fin 24} {e : SeatMapEntry} (hkept : loadedBefore SeatMapEntry.invalid stored i kept)
    (hfree : ∀ (j : Fin 24) (f : SeatMapEntry), j < i → stored[j] = some f → f.valid = true →
      ¬(f.slot = e.slot ∧ f.seat = e.seat) ∧ f.pos ≠ e.pos) : seatDuplicate kept i e = false := by
  refine Bool.eq_false_iff.mpr fun hd => ?_
  obtain ⟨-, j, -, hv, hheld⟩ := seatDuplicate_iff.mp hd
  rcases hkept j with hinv | ⟨hj, hs⟩
  · rw [hinv] at hv
    cases hv
  · obtain ⟨hkey, hpos⟩ := hfree j _ hj hs hv
    exact hheld.elim hkey hpos

theorem chainOf_of_pred_none {t : Rules} {n : Nat} {j : RuleIx} (h : t[j].pred = none) : chainOf t n j = [j] := by
  cases n with
  | zero => rfl
  | succ n =>
    unfold chainOf
    rw [h]

/-- In a table whose predecessors are lower, a chain does not rise. -/
theorem le_of_mem_chainOf {t : Rules} (hlow : ∀ j k : RuleIx, t[j].pred = some k → k < j) {n : Nat} {i j : RuleIx}
    (h : i ∈ chainOf t n j) : i ≤ j := by
  induction n generalizing j with
  | zero => exact (List.mem_singleton.mp h).le
  | succ n ih =>
    cases hp : t[j].pred with
    | none =>
      rw [chainOf_of_pred_none hp] at h
      exact (List.mem_singleton.mp h).le
    | some k =>
      unfold chainOf at h
      rw [hp] at h
      rcases List.mem_cons.mp h with rfl | h
      · exact le_rfl
      · exact (ih h).trans (hlow j k hp).le

theorem pred_lt_of_loadedBefore {stored : Vector (Option RuleEntry) 24} {kept : Rules} {i j k : RuleIx} {e : RuleEntry}
    (hkept : loadedBefore RuleEntry.invalid stored i kept) (hpred : e.pred = none)
    (hlow : ∀ (j k : RuleIx) (f : RuleEntry), stored[j] = some f → f.pred = some k → k < j)
    (hp : (put kept i e)[j].pred = some k) : k < j := by
  by_cases hj : j = i
  · subst hj
    rw [put_get_self, hpred] at hp
    cases hp
  · rw [put_get_ne _ _ hj] at hp
    rcases hkept j with hinv | ⟨-, hs⟩
    · rw [hinv] at hp
      cases hp
    · exact hlow j k _ hs hp

/-- A rule without a predecessor is put where no later rule is valid yet: its own chain is the rule alone, and no other
valid rule's chain reaches it. -/
theorem chainTooLong_loadedBefore {stored : Vector (Option RuleEntry) 24} {kept : Rules} {i : RuleIx} {e : RuleEntry}
    (hkept : loadedBefore RuleEntry.invalid stored i kept) (hpred : e.pred = none)
    (hlow : ∀ (j k : RuleIx) (f : RuleEntry), stored[j] = some f → f.pred = some k → k < j) :
    chainTooLong kept i e = false := by
  by_cases he : e.valid = true
  case neg => exact chainTooLong_invalid (Bool.eq_false_iff.mpr he)
  refine Bool.eq_false_iff.mpr fun hd => ?_
  obtain ⟨j, hv, hmem, hlong⟩ := (chainTooLong_iff he).mp hd
  by_cases hj : j = i
  · subst hj
    rw [chainOf_of_pred_none (by rw [put_get_self, hpred])] at hlong
    exact absurd hlong (show ¬4 < 1 by decide)
  · have hij : i ≤ j := le_of_mem_chainOf (fun _ _ => pred_lt_of_loadedBefore hkept hpred hlow) hmem
    rw [put_get_ne _ _ hj] at hv
    rcases hkept j with hinv | ⟨hlt, -⟩
    · rw [hinv] at hv
      cases hv
    · exact absurd hlt hij.not_gt

/-- Settles O4: the laws of the loaded tables, and that an entry free of every table of earlier ones is kept. -/
theorem hardResetLoadKeepsLaws : Obligations.HardResetLoadKeepsLaws := by
  intro s hop hcanon
  refine ⟨_, execHardReset_idle hop, fun i => loadKept_get .., fun i => loadKept_get .., fun i => loadKept_get ..,
    ⟨Store.loadNode_unique _, Store.loadSeatmap_unique _, Store.loadRule_short hcanon⟩, ?_, ?_, ?_⟩
  · exact fun i e he hfree => loadKept_get_of_free he fun _ hk => nodeDuplicate_loadedBefore hk hfree
  · exact fun i e he hfree => loadKept_get_of_free he fun _ hk => seatDuplicate_loadedBefore hk hfree
  · exact fun i e he hpred hlow => loadKept_get_of_free he fun _ hk => chainTooLong_loadedBefore hk hpred hlow

end Sys2Proof.Machine
end

section
/-! SUPPORT. The step and the queue of waiting commands (log entry 2). -/

namespace Sys2Proof.Machine

/-- Settles O1: of the two forms of the queue, a front command is the one that `step` hands to `exec`. -/
theorem stepRunsFrontCommand : Obligations.StepRunsFrontCommand := by
  intro s c cs hfront
  simp only [step, hfront]

end Sys2Proof.Machine
end
